-- ==== Sys2Proof/Word.lean ====
section
/-! DEFINITION. The plain data of the block: the widths of the words that cross its ports and of its
registers (R9, R20, R71, R76), the logic levels and the five pins (R23, R77). -/

namespace Sys2Proof

/-- A stored channel value, `W` = 16 bits (R9, R21, D2). -/
abbrev ChannelValue := BitVec 16

/-- The channel buffer `GS[0..15]` (R21): its length is always exactly 16 (R22). -/
abbrev Buffer := Vector ChannelValue 16

/-- A command word, format C, `CMDW` = 32 bits (R9, R71). -/
abbrev CommandWord := BitVec 32

/-- One pin transaction, format P, 4 bits (R76). -/
abbrev PinWord := BitVec 4

/-- Two pin transactions side by side, the first in the high nibble (the opcode table's note on
`PULSE`); a single transaction stands in the low nibble. -/
abbrev PinByte := BitVec 8

/-- A logic level (R77, R105). -/
inductive Level where
  | low
  | high
  deriving DecidableEq, Repr, Inhabited

/-- The five output lines, in the order of their numbers 0 to 4 (R23). -/
inductive Pin where
  | data
  | clock
  | blank
  | latch
  | grayscaleClock
  deriving DecidableEq, Repr, Inhabited

end Sys2Proof
end

