-- ==== Sys2Proof/Config.lean ====
section
/-! DEFINITION. What an implementation fixes (R8, R9), the values that cross the pin and response
ports, and the free values: opaque constants, so that no proof can see what they are. -/

namespace Sys2Proof

/-! ### The constants of R8 -/

/-- `NCH`: channel registers. -/
def Config.NCH : Nat := 16

/-- `GSBITS`: the bits of a channel value the protocol reads. -/
def Config.GSBITS : Nat := 12

/-- `NPINS`: output lines. -/
def Config.NPINS : Nat := 5

/-- `GS_PULSES`: grayscale-clock pulses of one `UPDATE`. -/
def Config.GS_PULSES : Nat := 4096

/-- `SCLK_PULSES`: serial-clock pulses of one `UPDATE`. -/
def Config.SCLK_PULSES : Nat := 192

/-- `PAD_PULSES`: grayscale-only iterations of one `UPDATE`. -/
def Config.PAD_PULSES : Nat := 3904

/-! ### The pin error (R9, U1, D3, D22) -/

/-- `EW`, the width in bits of a pin error on the ports: OPEN (R9). Log 1. -/
opaque Config.EW : Nat

/-- `PinErr`, the one error type of all five pins (R101, D22). The block forwards it unread. Log 1. -/
abbrev PinErr := BitVec Config.EW

/-! ### Values on the ports -/

/-- The pin environment's answer to one pin write (R100). -/
inductive Answer where
  | ok
  | err (e : PinErr)
  deriving DecidableEq, Repr, Inhabited

/-- One entry of the pin-write trace `TR`: a pin write that was issued, and its answer (R6). -/
structure Event where
  pin    : Pin
  level  : Level
  result : Answer
  deriving DecidableEq, Repr, Inhabited

/-- The result of one operation (R27, R78). -/
inductive Response where
  | ok
  | pinErr (e : PinErr)
  | faultIndex
  | faultIllegal
  deriving DecidableEq, Repr, Inhabited

/-! ### Free values -/

/-- The pin environment's answer to a pin write, as a function of the whole history, the pin and the
level (R100: "an oracle that may depend on the whole history"; U2). Used once State's list of coming
answers has run out. Log 2. -/
opaque Config.pinAnswer : List Event → Pin → Level → Answer

/-- Contents of the channel buffer where the spec calls them unspecified (R30, R120, R220; U13), for the
n-th draw. Log 4. -/
opaque Config.freeBuffer : Nat → Buffer

/-- `CH` where unspecified (R220, U14). Log 4. -/
opaque Config.freeCh : Nat → BitVec 5

/-- `BIT` where unspecified (R220, U14). Log 4. -/
opaque Config.freeBit : Nat → BitVec 4

/-- `SUB` where unspecified (R220, U14). Log 4. -/
opaque Config.freeSub : Nat → BitVec 3

/-- `PULSE` where unspecified (R220, U14). Log 4. -/
opaque Config.freePulse : Nat → BitVec 13

/-- `RSP` where unspecified (R220, U14). Log 4. -/
opaque Config.freeRsp : Nat → Response

end Sys2Proof
end

