-- ==== Sys2Proof/Syntax.lean ====
section
/-! DEFINITION. The nine operations of the block (R2) as syntax, one constructor per row of
spec/opcode_table.json. -/

namespace Sys2Proof

/-- The operand `v` of `SET_VALUE`: a logic level, or a number offered for conversion, of which only the
two bit values convert (R104, R105, D26). Log 15. -/
inductive Value where
  | level  (l : Level)
  | number (n : Nat)
  deriving DecidableEq, Repr

/-- The operations (R2, R82). -/
inductive Instr where
  /-- `NEW` (R120). -/
  | new
  /-- `SET_CHANNEL idx, val` (R130): `idx` is the whole 8-bit field, 16 to 255 included (R73). -/
  | setChannel (idx : BitVec 8) (val : ChannelValue)
  /-- `SET_ALL val` (R131). -/
  | setAll (val : ChannelValue)
  /-- `CLEAR` (R132). -/
  | clear
  /-- `UPDATE` (R140). -/
  | update
  /-- `SET_LOW p` (R102). -/
  | setLow (p : Pin)
  /-- `SET_HIGH p` (R103). -/
  | setHigh (p : Pin)
  /-- `SET_VALUE p, v` (R104). -/
  | setValue (p : Pin) (v : Value)
  /-- `PULSE p` (R106). -/
  | pulse (p : Pin)
  deriving DecidableEq, Repr

end Sys2Proof
end

