-- ==== Sys2Proof/WellFormed.lean ====
section
/-! DEFINITION. Well-formed instructions. Every field is as wide as its type, every pin is one of the five,
and an index of 16 to 255 is legal as a word (R75), so one check is left: the value of a `SET_VALUE` is
convertible to a logic level (R105, D26, U10). -/

namespace Sys2Proof

/-- A level converts to itself and the bits 0 and 1 convert; nothing else does (R105). -/
def Value.convertible : Value → Bool
  | .level _  => true
  | .number n => decide (n < 2)

/-- The check, constructor by constructor. -/
def Instr.wellFormed : Instr → Bool
  | .new            => true
  | .setChannel _ _ => true
  | .setAll _       => true
  | .clear          => true
  | .update         => true
  | .setLow _       => true
  | .setHigh _      => true
  | .setValue _ v   => v.convertible
  | .pulse _        => true

end Sys2Proof
end

