-- ==== Sys2Proof/Decode.lean ====
section
/-! DEFINITION. The formats C and P (R71 to R77): fields, the decoder, total and rejecting by name, and the
encoder. Also the conversion of a value to a logic level (R105), which the encoder needs. -/

namespace Sys2Proof

/-! ### Levels and pins as bits -/

/-- `lvl(b)`: the level of a bit, `High` for 1 and `Low` for 0 (R105). -/
def lvl (b : Bool) : Level := if b then .high else .low

/-- `level_of(v)`: a level is itself, the bits 0 and 1 convert, nothing else does (R105, D26). -/
def levelOf : Value → Option Level
  | .level l  => some l
  | .number n => if n = 0 then some .low else if n = 1 then some .high else none

/-- The bit of a level: `Low` = 0, `High` = 1 (R77). -/
def levelBit : Level → BitVec 1
  | .low  => 0
  | .high => 1

/-- `PINSEL` of a pin (R23, R76). -/
def pinNumber : Pin → BitVec 3
  | .data           => 0
  | .clock          => 1
  | .blank          => 2
  | .latch          => 3
  | .grayscaleClock => 4

/-- The pin of a `PINSEL`; 5, 6 and 7 name none (R75, R76). -/
def pinOfNumber (n : BitVec 3) : Option Pin :=
  match n.toNat with
  | 0 => some .data
  | 1 => some .clock
  | 2 => some .blank
  | 3 => some .latch
  | 4 => some .grayscaleClock
  | _ => none

/-! ### Fields of a command word (R71) -/

/-- `OPC`, bits 31:28. -/
def opcField (w : CommandWord) : BitVec 4 := w.extractLsb' 28 4

/-- `ZERO`, bits 27:24. -/
def zeroField (w : CommandWord) : BitVec 4 := w.extractLsb' 24 4

/-- `IDX`, bits 23:16. -/
def idxField (w : CommandWord) : BitVec 8 := w.extractLsb' 16 8

/-- `VAL`, bits 15:0. -/
def valField (w : CommandWord) : ChannelValue := w.extractLsb' 0 16

/-! ### The decoder -/

/-- Why bits spell no instruction. A command word among these raises `IllegalCommand` when it is
accepted (R75, R193). -/
inductive DecodeError where
  /-- `OPC` is 0x0 or 0x6 to 0xF. -/
  | reservedOpcode
  /-- `ZERO` is not 0. -/
  | zeroFieldSet
  /-- `IDX` is not 0 where the operation does not use it. -/
  | unusedIndexSet
  /-- `VAL` is not 0 where the operation does not use it. -/
  | unusedValueSet
  /-- `PINSEL` is 5, 6 or 7. -/
  | noSuchPin
  /-- Two transactions that are not a high and then a low on one pin. -/
  | notAPulse
  deriving DecidableEq, Repr

/-- `i`, unless a field it does not use is not 0 (R72, R75). -/
def withoutOperands (w : CommandWord) (i : Instr) : Except DecodeError Instr :=
  if idxField w ≠ 0 then .error .unusedIndexSet
  else if valField w ≠ 0 then .error .unusedValueSet
  else .ok i

/-- Format C: the opcode map of R72 with the illegal words of R75. -/
def decodeCommand (w : CommandWord) : Except DecodeError Instr :=
  if zeroField w ≠ 0 then .error .zeroFieldSet
  else
    match (opcField w).toNat with
    | 1 => withoutOperands w .new
    | 2 => .ok (.setChannel (idxField w) (valField w))
    | 3 => if idxField w ≠ 0 then .error .unusedIndexSet else .ok (.setAll (valField w))
    | 4 => withoutOperands w .clear
    | 5 => withoutOperands w .update
    | _ => .error .reservedOpcode

/-- Format P, one transaction: `PINSEL` in bits 3:1, `LEVEL` in bit 0 (R76). -/
def decodeTransaction (t : PinWord) : Except DecodeError Instr :=
  match pinOfNumber (t.extractLsb' 1 3) with
  | none   => .error .noSuchPin
  | some p => .ok (if t.getLsbD 0 then .setHigh p else .setLow p)

/-- Two transactions, `first` and then `second`: a pulse when they are `{p, 1}` and `{p, 0}` of one pin
(R83, R106, and the note of the opcode table's row). -/
def decodeTransactions (first second : PinWord) : Except DecodeError Instr :=
  match decodeTransaction first, decodeTransaction second with
  | .error e, _ => .error e
  | _, .error e => .error e
  | .ok (.setHigh p), .ok (.setLow q) => if p = q then .ok (.pulse p) else .error .notAPulse
  | _, _ => .error .notAPulse

/-- A byte at the pin capability: one transaction when its high nibble is 0, else two. The two readings do
not meet: the first transaction of a pulse has its `LEVEL` bit set. Log 16. -/
def decodeByte (b : PinByte) : Except DecodeError Instr :=
  if b.extractLsb' 4 4 = 0#4 then decodeTransaction (b.extractLsb' 0 4)
  else decodeTransactions (b.extractLsb' 4 4) (b.extractLsb' 0 4)

/-- An instruction as bits: a command word, one pin transaction, or two. -/
inductive Encoded where
  | command (w : CommandWord)
  | transaction (t : PinWord)
  | transactions (first second : PinWord)
  deriving DecidableEq, Repr

/-- The decoder. -/
def decode : Encoded → Except DecodeError Instr
  | .command w        => decodeCommand w
  | .transaction t    => decodeTransaction t
  | .transactions t u => decodeTransactions t u

/-! ### The encoder -/

/-- A format C word from its fields (R71). -/
def packCommand (opc : BitVec 4) (idx : BitVec 8) (val : ChannelValue) : CommandWord :=
  opc ++ (0 : BitVec 4) ++ idx ++ val

/-- A format P transaction from its fields (R76). -/
def packTransaction (p : Pin) (l : Level) : PinWord := pinNumber p ++ levelBit l

/-- The bits of an instruction (R72, R76, R83). `SET_VALUE` is issued as the transaction of the operation
it dispatches to; a value that converts to no level is written as `Low` (WellFormed refuses it). -/
def encode : Instr → Encoded
  | .new                => .command (packCommand 1 0 0)
  | .setChannel idx val => .command (packCommand 2 idx val)
  | .setAll val         => .command (packCommand 3 0 val)
  | .clear              => .command (packCommand 4 0 0)
  | .update             => .command (packCommand 5 0 0)
  | .setLow p           => .transaction (packTransaction p .low)
  | .setHigh p          => .transaction (packTransaction p .high)
  | .setValue p v       => .transaction (packTransaction p ((levelOf v).getD .low))
  | .pulse p            => .transactions (packTransaction p .high) (packTransaction p .low)

/-- The operation that appears on a port for `i`: `SET_VALUE` appears as the operation it dispatches to
(R83, R104), every other instruction as itself. -/
def onPort : Instr → Instr
  | .setValue p v => if levelOf v = some .high then .setHigh p else .setLow p
  | i             => i

/-- The instruction of a row of spec/opcode_table.json: rows of at most 8 bits are pin transactions, the
others are 32-bit command words. -/
def decodeTableWord (nbits w : Nat) : Option Instr :=
  if nbits ≤ 8 then
    if w < 256 then (decodeByte (BitVec.ofNat 8 w)).toOption else none
  else
    if w < 4294967296 then (decodeCommand (BitVec.ofNat 32 w)).toOption else none

end Sys2Proof
end

