-- ==== Sys2Proof/Machine/State.lean ====
section
/-! DEFINITION. The state of the block (R20), the ports' inputs as plain data (R70), the reasons a step can
stop, and the state after reset (R30). -/

namespace Sys2Proof.Machine

/-- The level last committed on a line, or `X`, unknown (R20, R23). Log 3. -/
inductive PinLevel where
  | low
  | high
  | x
  deriving DecidableEq, Repr

/-- `PIN[0..4]`, by name (R23). -/
structure Pins where
  data           : PinLevel
  clock          : PinLevel
  blank          : PinLevel
  latch          : PinLevel
  grayscaleClock : PinLevel
  deriving DecidableEq, Repr

/-- `PH`, the phase (R24). -/
inductive Phase where
  | uninit
  | constructing
  | idle
  | blanking
  | transferring
  | committing
  | failed
  | halted
  deriving DecidableEq, Repr

/-- What became of the pin write of the interrupted operation when `rst` came (R221): none had been issued,
or one was in flight and is not in the trace, or one was in flight and is in the trace. Log 7. -/
inductive InFlight where
  | none
  | unrecorded
  | recorded
  deriving DecidableEq, Repr

/-- One sample of the reset input `rst` (R70): not asserted, or asserted with the choice of R221. Log 7. -/
inductive RstSample where
  | low
  | high (f : InFlight)
  deriving DecidableEq, Repr

/-- The state of the block. -/
structure State where
  /-- `GS[0..15]`, the channel registers (R20, R21). -/
  gs        : Buffer
  /-- `PIN[0..4]` (R20, R23). -/
  pin       : Pins
  /-- `PH` (R20, R24). -/
  ph        : Phase
  /-- `CH`, the channel cursor, two's complement (R20, R26). -/
  ch        : BitVec 5
  /-- `BIT`, the bit position (R20, R26). -/
  bit       : BitVec 4
  /-- `SUB`, the step inside the iteration or sequence (R20, R26). -/
  sub       : BitVec 3
  /-- `PULSE`, the grayscale-pulse counter (R20, R26, R201). -/
  pulse     : BitVec 13
  /-- `RSP`, the result of the last finished operation (R20, R27). -/
  rsp       : Response
  /-- `TR`, the pin-write trace, oldest first (R6, R20). -/
  tr        : List Event
  /-- Input port: the command words the host presents, the head being on the port (R70, R74). Log 6. -/
  cmd       : List CommandWord
  /-- Input port: the coming samples of `rst`, one a step; none left means not asserted (R70). Log 7. -/
  rst       : List RstSample
  /-- Input port: the pin environment's coming answers (R70, R100). Log 2. -/
  env       : List Answer
  /-- The model's own: words presented at the pin capability itself. Log 11. -/
  direct    : List PinByte
  /-- The model's own: the results returned to the host, oldest first (R6, `rsp_valid` of R70). Log 14. -/
  responses : List Response
  /-- The model's own: what the last pin-capability operation returned to its caller (R100). Log 14. -/
  ret       : Answer
  /-- The model's own: the counter free values are drawn by. Log 4. -/
  draws     : Nat
  deriving DecidableEq, Repr

/-- Why the machine stops. -/
inductive Fault where
  /-- `PH` is `HALTED` and `rst` is not asserted: "no step is ever made" (R197). Raised by the step and by
  the five controller operations. Safe: the hardware makes no step there either. Log 9. -/
  | halted
  /-- The sequencer's position is none of the table of R177, or `BIT` is above 11 where it would be read:
  "Positions not in the table are not reachable". Raised by the step. Safe. Log 10. -/
  | unreachablePosition
  deriving DecidableEq, Repr

/-- Why something presented has no meaning. -/
inductive Refusal where
  /-- An instruction without a meaning in this model; no arm of exec answers so. Safe. -/
  | notModelled (mnemonic : String)
  /-- `SET_VALUE` of a value that is neither a level nor a bit: "`refuse` everything but a level and a bit"
  (U10, R105, D26). Raised by `SET_VALUE`. Safe. Log 15. -/
  | notConvertible
  /-- A word at the pin capability that spells no operation: "pin numbers 5, 6 and 7 are never issued by
  the block" (R75). Raised by the step. Safe. Log 16. -/
  | notATransaction
  deriving DecidableEq, Repr

/-- All five lines unknown (R23, R30). -/
def Pins.unknown : Pins :=
  { data := .x, clock := .x, blank := .x, latch := .x, grayscaleClock := .x }

/-- The state after reset (R30, R220): `PH` is `UNINIT`, every line is `X`, the trace is empty. The values of
`GS`, `CH`, `BIT`, `SUB`, `PULSE` and `RSP`, which the spec leaves unspecified, are DESIGN CHOICEs (log 5);
the ports are quiet. -/
def State.reset : State :=
  { gs := Vector.replicate 16 0
    pin := Pins.unknown
    ph := .uninit
    ch := 0
    bit := 0
    sub := 0
    pulse := 0
    rsp := .ok
    tr := []
    cmd := []
    rst := []
    env := []
    direct := []
    responses := []
    ret := .ok
    draws := 0 }

end Sys2Proof.Machine
end

