-- ==== Sys2Proof/Machine/Flags.lean ====
section
/-! DEFINITION. The block has no condition codes (R27). What stands in their place: the code of a phase, the
derived flag `BUSY`, the admission of a command, and the response port's codes (R24, R70, R78, R193). -/

namespace Sys2Proof.Machine

/-- The code of a phase in `PH` (R24). -/
def phaseCode : Phase → BitVec 3
  | .uninit       => 0
  | .constructing => 1
  | .idle         => 2
  | .blanking     => 3
  | .transferring => 4
  | .committing   => 5
  | .failed       => 6
  | .halted       => 7

/-- `BUSY` as a function of the phase (R24). -/
def phaseBusy : Phase → Bool
  | .constructing | .blanking | .transferring | .committing => true
  | .uninit | .idle | .failed | .halted => false

/-- `BUSY` (R24). -/
def busy (s : State) : Bool := phaseBusy s.ph

/-- `cmd_ready`: "1 exactly when `BUSY` = 0 and `PH` is not `HALTED`" (R70). -/
def cmdReady (s : State) : Bool := !busy s && decide (s.ph ≠ .halted)

/-- The phases that admit `NEW` (R193). -/
def admitsNew : Phase → Bool
  | .uninit | .idle | .failed => true
  | .constructing | .blanking | .transferring | .committing | .halted => false

/-- The phases that admit `SET_CHANNEL`, `SET_ALL`, `CLEAR` and `UPDATE` (R193). -/
def admitsController : Phase → Bool
  | .idle | .failed => true
  | .uninit | .constructing | .blanking | .transferring | .committing | .halted => false

/-- `rsp_status` of a result (R78). -/
def statusCode : Response → BitVec 2
  | .ok           => 0
  | .pinErr _     => 1
  | .faultIndex   => 2
  | .faultIllegal => 3

/-- The output `rsp_status` (R70): `RSP` holds the last result. -/
def rspStatus (s : State) : BitVec 2 := statusCode s.rsp

/-- The output `rsp_err` (R70), meaningful only with `PIN_ERR`. -/
def rspErr (s : State) : Option PinErr :=
  match s.rsp with
  | .pinErr e => some e
  | .ok | .faultIndex | .faultIllegal => none

end Sys2Proof.Machine
end

