-- ==== Sys2Proof/Machine/Operands.lean ====
section
/-! DEFINITION. Operand forms: a line by its pin, a channel register by index, the data bit `UPDATE` reads. -/

namespace Sys2Proof.Machine

/-- The level last committed on pin `p` (R23). -/
def pinLevel (pins : Pins) : Pin → PinLevel
  | .data           => pins.data
  | .clock          => pins.clock
  | .blank          => pins.blank
  | .latch          => pins.latch
  | .grayscaleClock => pins.grayscaleClock

/-- The lines with pin `p` at `v` and every other line as it was (R23). -/
def setPin (pins : Pins) (p : Pin) (v : PinLevel) : Pins :=
  match p with
  | .data           => { pins with data := v }
  | .clock          => { pins with clock := v }
  | .blank          => { pins with blank := v }
  | .latch          => { pins with latch := v }
  | .grayscaleClock => { pins with grayscaleClock := v }

/-- A committed level as a value of `PIN` (R23). -/
def committed : Level → PinLevel
  | .low  => .low
  | .high => .high

/-- What a write leaves on its line: the level on `Ok`, `X` on `Err(e)` (R100, D15). -/
def lineAfter (l : Level) : Answer → PinLevel
  | .ok    => committed l
  | .err _ => .x

/-- `BufRead(i)` (R52). -/
def bufRead (gs : Buffer) (i : Fin 16) : ChannelValue := gs[i]

/-- `BufWrite(i, v)` (R52). -/
def bufWrite (gs : Buffer) (i : Fin 16) (v : ChannelValue) : Buffer := gs.set i v

/-- All sixteen registers at `v`: the loop of R120, R131 and R132. -/
def bufFill (v : ChannelValue) : Buffer := Vector.replicate 16 v

/-- `IDX` as an index of the buffer: 0 to 15 select a register, 16 to 255 none, never reduced or clamped
(R55, R73). -/
def channelIndex (idx : BitVec 8) : Option (Fin 16) :=
  if h : idx.toNat < 16 then some ⟨idx.toNat, h⟩ else none

/-- `GS[c][b]` (R56, R165). -/
def dataBit (gs : Buffer) (c : Fin 16) (b : Nat) : Bool := (bufRead gs c).getLsbD b

/-- `CH` as a channel: none when the cursor is negative, that is, when the top bit of the five is set
(R20, R26). -/
def cursorChannel (ch : BitVec 5) : Option (Fin 16) :=
  if h : ch.toNat < 16 then some ⟨ch.toNat, h⟩ else none

end Sys2Proof.Machine
end

