-- ==== Sys2Proof/Machine/Ops.lean ====
section
/-! DEFINITION. The named operations the meanings are made of: a pin write, a response, the exceptional
events, hardware reset, and the acceptance of a command. -/

namespace Sys2Proof.Machine

/-! ### Pin writes -/

/-- The pin environment's answer to the next write: the head of the coming answers, or, when none is left,
the free value `Config.pinAnswer` of the history (R100, U2). Log 2. -/
def pinAnswer (p : Pin) (l : Level) (s : State) : Answer :=
  match s.env with
  | r :: _ => r
  | []     => Config.pinAnswer s.tr p l

/-- `PinWrite(p, l)` (R100): the answer is asked for, the write is recorded with it, the line takes the level
or becomes `X`, and the answer is returned. It touches no other pin and no register. -/
def pinWrite (p : Pin) (l : Level) (s : State) : State :=
  { s with
    tr  := s.tr ++ [{ pin := p, level := l, result := pinAnswer p l s }]
    pin := setPin s.pin p (lineAfter l (pinAnswer p l s))
    env := s.env.tail
    ret := pinAnswer p l s }

/-! ### Results and exceptional events -/

/-- `respond(r)`: `RSP` takes the result and the host gets it (R27, R70). -/
def respond (r : Response) (s : State) : State :=
  { s with rsp := r, responses := s.responses ++ [r] }

/-- The buffer unspecified: every register takes a free value (R30, R120, R220). Log 4. -/
def forgetBuffer (s : State) : State :=
  { s with gs := Config.freeBuffer s.draws, draws := s.draws + 1 }

/-- The exceptional events (R190). Nothing is recorded of the index or of the word. -/
inductive Exn where
  | pinWriteFailed (e : PinErr)
  | indexFault
  | illegalCommand
  deriving DecidableEq, Repr

/-- Taking an exceptional event (R190, R196, R197). There is no handler and no vector; the operation ends and
the host gets the result. `PinWriteFailed` leaves `UNINIT` and an unspecified buffer from `NEW` (R120, R162)
and `FAILED` from `UPDATE` (R174); the position registers keep their values. The two faults set `PH` to
`HALTED` and `RSP`; nothing else changes. There is no return from an event and nothing to restore (R198). -/
def raiseExn (x : Exn) (s : State) : State :=
  match x with
  | .pinWriteFailed e =>
    match s.ph with
    | .constructing => respond (.pinErr e) (forgetBuffer { s with ph := .uninit })
    | .uninit | .idle | .blanking | .transferring | .committing | .failed | .halted =>
      respond (.pinErr e) { s with ph := .failed }
  | .indexFault     => respond .faultIndex { s with ph := .halted }
  | .illegalCommand => respond .faultIllegal { s with ph := .halted }

/-! ### Acceptance of a command -/

/-- A controller operation at the command port (R74, R193, R195, R197). In `HALTED` nothing is accepted and
no step is made: the fault of log 9. In a busy phase the word is not accepted and nothing changes (log 12).
Otherwise the operation has its `effect` in a phase that admits it and raises `IllegalCommand` in one that
does not. -/
def onCommand (admits : Phase → Bool) (effect : State → State) (s : State) :
    Host.Outcome State Fault Refusal :=
  match s.ph with
  | .halted => .fault .halted
  | .constructing | .blanking | .transferring | .committing => .next s
  | .uninit | .idle | .failed =>
    if admits s.ph then .next (effect s) else .next (raiseExn .illegalCommand s)

/-! ### The ports -/

/-- One sample of `rst` has been taken. -/
def takeSample (s : State) : State := { s with rst := s.rst.tail }

/-- The word on the command port has been accepted (R70). -/
def takeCommand (s : State) : State := { s with cmd := s.cmd.tail }

/-- The word at the pin capability has been taken. -/
def takeDirect (s : State) : State := { s with direct := s.direct.tail }

end Sys2Proof.Machine
end

