-- ==== Sys2Proof/Machine/Capability.lean ====
section
/-! DEFINITION. The digital-output capability (R100 to R107): `SET_LOW`, `SET_HIGH`, `SET_VALUE`, `PULSE`.
They raise nothing: the answer is returned to the caller, in State's `ret`. -/

namespace Sys2Proof.Machine

/-- `SET_LOW p` (R102). -/
def execSetLow (p : Pin) (s : State) : Host.Outcome State Fault Refusal :=
  .next (pinWrite p .low s)

/-- `SET_HIGH p` (R103). -/
def execSetHigh (p : Pin) (s : State) : Host.Outcome State Fault Refusal :=
  .next (pinWrite p .high s)

/-- `SET_VALUE p, v` (R104): exactly one write, of the level `v` converts to; a value that converts to none
is refused (U10). -/
def execSetValue (p : Pin) (v : Value) (s : State) : Host.Outcome State Fault Refusal :=
  match levelOf v with
  | some .low  => execSetLow p s
  | some .high => execSetHigh p s
  | none       => .refused .notConvertible

/-- The two writes of a pulse (R106): the low write is made only if the high write was answered `Ok`. -/
def pulsePin (p : Pin) (s : State) : State :=
  match (pinWrite p .high s).ret with
  | .ok    => pinWrite p .low (pinWrite p .high s)
  | .err _ => pinWrite p .high s

/-- `PULSE p` (R106). -/
def execPulse (p : Pin) (s : State) : Host.Outcome State Fault Refusal :=
  .next (pulsePin p s)

end Sys2Proof.Machine
end

