-- ==== Sys2Proof/Machine/Construction.lean ====
section
/-! DEFINITION. Construction (R120 to R123, R161, R162). -/

namespace Sys2Proof.Machine

/-- The acceptance of `NEW` (R161): `PH <- CONSTRUCTING; SUB <- 0`, no pin write in this step. The five
writes are the sequencer's next steps (R162; Machine/Sequencer.lean). Log 8. -/
def beginNew (s : State) : State := { s with ph := .constructing, sub := 0 }

/-- The end of `NEW`, after the fifth write was answered `Ok` (R120, R162). -/
def finishNew (s : State) : State :=
  respond .ok { s with gs := bufFill 0, ph := .idle, sub := 0 }

/-- `NEW` (R120, R122, R161, R193). -/
def execNew (s : State) : Host.Outcome State Fault Refusal :=
  onCommand admitsNew beginNew s

end Sys2Proof.Machine
end

