-- ==== Sys2Proof/Machine/Mutation.lean ====
section
/-! DEFINITION. Channel mutation (R130 to R135): `SET_CHANNEL`, `SET_ALL`, `CLEAR`. Each is one step with no
pin write (R175). -/

namespace Sys2Proof.Machine

/-- `GS[idx] <- val` and `OK`, or `IndexFault` for an index above 15 (R130). -/
def writeChannel (idx : BitVec 8) (val : ChannelValue) (s : State) : State :=
  match channelIndex idx with
  | some i => respond .ok { s with gs := bufWrite s.gs i val }
  | none   => raiseExn .indexFault s

/-- Every register takes `val`, and `OK` (R131). -/
def writeAll (val : ChannelValue) (s : State) : State :=
  respond .ok { s with gs := bufFill val }

/-- `SET_CHANNEL idx, val` (R130, R193). -/
def execSetChannel (idx : BitVec 8) (val : ChannelValue) (s : State) :
    Host.Outcome State Fault Refusal :=
  onCommand admitsController (writeChannel idx val) s

/-- `SET_ALL val` (R131, R193). -/
def execSetAll (val : ChannelValue) (s : State) : Host.Outcome State Fault Refusal :=
  onCommand admitsController (writeAll val) s

/-- `CLEAR`, "equivalent to `set_all(0)`" (R132, R193). -/
def execClear (s : State) : Host.Outcome State Fault Refusal :=
  onCommand admitsController (writeAll 0) s

end Sys2Proof.Machine
end

