-- ==== Sys2Proof/Machine/Update.lean ====
section
/-! DEFINITION. The update operation's ends (R140, R163, R173); the writes between them are the sequencer's
steps (Machine/Sequencer.lean). -/

namespace Sys2Proof.Machine

/-- The acceptance of `UPDATE` (R163): `PH <- BLANKING`, no pin write in this step, the position not yet
written. Log 8. -/
def beginUpdate (s : State) : State := { s with ph := .blanking }

/-- The end of `UPDATE`, after the latch-low write was answered `Ok` (R145, R173). -/
def finishUpdate (s : State) : State := respond .ok { s with ph := .idle, sub := 0 }

/-- `UPDATE` (R140, R147, R163, R193). -/
def execUpdate (s : State) : Host.Outcome State Fault Refusal :=
  onCommand admitsController beginUpdate s

end Sys2Proof.Machine
end

