-- ==== Sys2Proof/Machine/Dispatch.lean ====
section
/-! DEFINITION. Every instruction to its meaning. -/

namespace Sys2Proof.Machine

def exec (i : Instr) (s : State) : Host.Outcome State Fault Refusal :=
  match i with
  | .new => Sys2Proof.Machine.execNew s
  | .setChannel idx val => Sys2Proof.Machine.execSetChannel idx val s
  | .setAll val => Sys2Proof.Machine.execSetAll val s
  | .clear => Sys2Proof.Machine.execClear s
  | .update => Sys2Proof.Machine.execUpdate s
  | .setLow p => Sys2Proof.Machine.execSetLow p s
  | .setHigh p => Sys2Proof.Machine.execSetHigh p s
  | .setValue p v => Sys2Proof.Machine.execSetValue p v s
  | .pulse p => Sys2Proof.Machine.execPulse p s

end Sys2Proof.Machine
end

