-- ==== Sys2Proof/Machine/Sequencer.lean ====
section
/-! DEFINITION. The sequencer (R160 to R178): which pin operation its position asks for, how the position
advances after the answer, and hardware reset, which may cut a write off (R220, R221). -/

namespace Sys2Proof.Machine

/-! ### The next pin operation (R162 to R173, R177) -/

/-- In `CONSTRUCTING`, by `SUB` (R162). -/
def nextConstructing (s : State) : Option Instr :=
  match s.sub.toNat with
  | 0 => some (.setLow .data)
  | 1 => some (.setLow .clock)
  | 2 => some (.setLow .latch)
  | 3 => some (.setLow .grayscaleClock)
  | 4 => some (.setHigh .blank)
  | _ => none

/-- In a shift iteration of channel `c`, by `SUB` (R165 to R169). Only bits 11 to 0 of a register are ever
read (R56). -/
def nextShift (c : Fin 16) (s : State) : Option Instr :=
  if s.bit.toNat ≤ 11 then
    match s.sub.toNat with
    | 0 => some (.setValue .data (.level (lvl (dataBit s.gs c s.bit.toNat))))
    | 1 => some (.setHigh .clock)
    | 2 => some (.setLow .clock)
    | 3 => some (.setHigh .grayscaleClock)
    | 4 => some (.setLow .grayscaleClock)
    | _ => none
  else none

/-- In a pad iteration, by `SUB` (R170 to R172). -/
def nextPad (s : State) : Option Instr :=
  match s.sub.toNat with
  | 0 => some (.setLow .data)
  | 3 => some (.setHigh .grayscaleClock)
  | 4 => some (.setLow .grayscaleClock)
  | _ => none

/-- In `COMMITTING`, by `SUB` (R173). -/
def nextCommitting (s : State) : Option Instr :=
  match s.sub.toNat with
  | 0 => some (.setHigh .blank)
  | 1 => some (.setHigh .latch)
  | 2 => some (.setLow .latch)
  | _ => none

/-- The pin operation the position asks for; none outside a busy phase and at a position that is not
reachable (R177). Log 10. -/
def nextPinOp (s : State) : Option Instr :=
  match s.ph with
  | .constructing => nextConstructing s
  | .blanking     => some (.setLow .blank)
  | .transferring =>
    match cursorChannel s.ch with
    | some c => nextShift c s
    | none   => nextPad s
  | .committing   => nextCommitting s
  | .uninit | .idle | .failed | .halted => none

/-- The pin write an operation of one write makes (R102 to R104). -/
def writeOf : Instr → Option (Pin × Level)
  | .setLow p     => some (p, .low)
  | .setHigh p    => some (p, .high)
  | .setValue p v => (levelOf v).map (fun l => (p, l))
  | .new | .setChannel _ _ | .setAll _ | .clear | .update | .pulse _ => none

/-- The pin write the position asks for (R177). -/
def nextWrite (s : State) : Option (Pin × Level) := (nextPinOp s).bind writeOf

/-- The output `pw_valid` (R70). -/
def pwValid (s : State) : Bool := (nextWrite s).isSome

/-- The output `pw`, format P (R70, R76, R177). -/
def pw (s : State) : Option PinWord := (nextWrite s).map (fun w => packTransaction w.1 w.2)

/-! ### Advancing the position after an `Ok` -/

/-- The end of an iteration: `PULSE <- PULSE + 1; SUB <- 0`, and `COMMITTING` when `PULSE` has reached 4096
(R149, R169, R172). -/
def endIteration (s : State) : State :=
  { s with
    pulse := s.pulse + 1
    sub   := 0
    ph    := if s.pulse + 1 = 4096 then .committing else s.ph }

/-- The next data bit: one lower in the channel, or bit 11 of the channel below (R169). -/
def nextBit (s : State) : State :=
  if s.bit = 0 then { s with bit := 11, ch := s.ch - 1 } else { s with bit := s.bit - 1 }

/-- `CONSTRUCTING` (R162). -/
def advanceConstructing (s : State) : State :=
  if s.sub = 4 then finishNew s else { s with sub := s.sub + 1 }

/-- `BLANKING` (R164). -/
def beginTransfer (s : State) : State :=
  { s with ph := .transferring, ch := 15, bit := 11, sub := 0, pulse := 0 }

/-- A shift iteration (R165 to R169). -/
def advanceShift (s : State) : State :=
  if s.sub = 4 then endIteration (nextBit s) else { s with sub := s.sub + 1 }

/-- A pad iteration (R170 to R172). -/
def advancePad (s : State) : State :=
  if s.sub = 4 then endIteration s
  else if s.sub = 0 then { s with sub := 3 }
  else { s with sub := s.sub + 1 }

/-- `COMMITTING` (R173). -/
def advanceCommitting (s : State) : State :=
  if s.sub = 2 then finishUpdate s else { s with sub := s.sub + 1 }

/-- The position after a write answered `Ok` (R162 to R173). -/
def advanceOk (s : State) : State :=
  match s.ph with
  | .constructing => advanceConstructing s
  | .blanking     => beginTransfer s
  | .transferring =>
    match cursorChannel s.ch with
    | some _ => advanceShift s
    | none   => advancePad s
  | .committing   => advanceCommitting s
  | .uninit | .idle | .failed | .halted => s

/-- After the answer: on `Ok` the position advances, on `Err(e)` `PinWriteFailed(e)` is raised (R160, R162,
R174). -/
def advance (s : State) : State :=
  match s.ret with
  | .ok    => advanceOk s
  | .err e => raiseExn (.pinWriteFailed e) s

/-- A step of the sequencer around the pin operation it issued (R160). -/
def afterPinOp : Host.Outcome State Fault Refusal → Host.Outcome State Fault Refusal
  | .next s    => .next (advance s)
  | .fault f   => .fault f
  | .refused r => .refused r

/-! ### Hardware reset -/

/-- The pin write cut off by `rst` (R221): none had been issued; or one had, its line is `X`, and it is in
the trace or not. The next write is the one the position asks for. Log 7. -/
def interruptWrite (f : InFlight) (s : State) : State :=
  match nextWrite s, f with
  | none, _               => s
  | some _, .none         => s
  | some w, .unrecorded   => { s with pin := setPin s.pin w.1 .x }
  | some w, .recorded     =>
    { s with
      tr  := s.tr ++ [{ pin := w.1, level := w.2, result := pinAnswer w.1 w.2 s }]
      pin := setPin s.pin w.1 .x
      env := s.env.tail }

/-- `rst` (R220): `PH <- UNINIT`, no pin is written, and `GS`, `CH`, `BIT`, `SUB`, `PULSE` and `RSP` are
unspecified: each takes a free value (log 4). No response is given (R221). Every `PIN[p]` is `X` "from hardware
reset until the first successful write" (R23, the table of R30): the lines themselves keep whatever level they had
(R220), which `X` leaves open (log 19). -/
def hardwareReset (f : InFlight) (s : State) : State :=
  { interruptWrite f s with
    pin   := Pins.unknown
    ph    := .uninit
    gs    := Config.freeBuffer s.draws
    ch    := Config.freeCh s.draws
    bit   := Config.freeBit s.draws
    sub   := Config.freeSub s.draws
    pulse := Config.freePulse s.draws
    rsp   := Config.freeRsp s.draws
    draws := s.draws + 1 }

end Sys2Proof.Machine
end

