-- ==== Sys2Proof/Machine/Fetch.lean ====
section
/-! DEFINITION. What the next step does: the block has no program counter (R26), so its next instruction is
the pin operation the sequencer's position asks for, or the command word the host presents. Also how an
instruction's bits are put where that selection takes them. -/

namespace Sys2Proof.Machine

/-- What a step does. -/
inductive Fetched where
  /-- `rst` is asserted (R220). -/
  | reset (f : InFlight)
  /-- `PH` is `HALTED` (R197). -/
  | halted
  /-- A busy phase at a position that is not reachable (R177). -/
  | unreachable
  /-- The sequencer issues a pin operation (R160). -/
  | sequencer (i : Instr)
  /-- A command word is accepted and spells an operation (R74, R195). -/
  | command (i : Instr)
  /-- A command word is accepted and spells none (R75, R195). -/
  | illegal
  /-- A pin operation presented at the capability itself. Log 11. -/
  | direct (i : Instr)
  /-- Bits presented at the capability that spell none. Log 16. -/
  | notATransaction
  /-- Nothing is presented: the block "holds its state and does nothing" (R205). -/
  | hold
  deriving DecidableEq, Repr

/-- A command word at the port of a block that is ready (R70, R74, R195). -/
def fetchCommand (s : State) : Fetched :=
  match s.cmd with
  | []     => .hold
  | w :: _ =>
    match decodeCommand w with
    | .ok i    => .command i
    | .error _ => .illegal

/-- In `UNINIT` no controller owns the pins, and words presented at the capability come first. Log 11. -/
def fetchUninit (s : State) : Fetched :=
  match s.direct with
  | []     => fetchCommand s
  | b :: _ =>
    match decodeByte b with
    | .ok i    => .direct i
    | .error _ => .notATransaction

/-- In a busy phase the sequencer makes its next step and no command is accepted (R74, R160). -/
def fetchBusy (s : State) : Fetched :=
  match nextPinOp s with
  | some i => .sequencer i
  | none   => .unreachable

/-- The selection when `rst` is not asserted. -/
def fetchByPhase (s : State) : Fetched :=
  match s.ph with
  | .halted => .halted
  | .constructing | .blanking | .transferring | .committing => fetchBusy s
  | .uninit => fetchUninit s
  | .idle | .failed => fetchCommand s

/-- The selection: `rst` before all else, "asserted in any state" (R220). -/
def fetch (s : State) : Fetched :=
  match s.rst with
  | .high f :: _ => .reset f
  | .low :: _    => fetchByPhase s
  | []           => fetchByPhase s

/-- `rst` not asserted at the next step. -/
def quietReset (s : State) : State :=
  match s.rst with
  | .high _ :: _ => { s with rst := [] }
  | .low :: _    => s
  | []           => s

/-- `s` with the command word `w` presented next: in a phase that accepts no command (busy, `HALTED`) the
phase becomes `IDLE`. Logs 16 and 17. -/
def placeCommand (w : CommandWord) (s : State) : State :=
  { quietReset s with
    cmd    := w :: s.cmd
    direct := []
    ph     := if cmdReady s then s.ph else .idle }

/-- `s` with the byte `b` presented next at the pin capability, which takes it in `UNINIT`. Logs 11 and 16. -/
def placeDirect (b : PinByte) (s : State) : State :=
  { quietReset s with direct := b :: s.direct, ph := .uninit }

end Sys2Proof.Machine
end

