-- ==== Sys2Proof/Machine/Step.lean ====
section
/-! DEFINITION. One step of the block: the selection of Machine/Fetch.lean, and exec around it. -/

namespace Sys2Proof.Machine

/-- One step (R74, R160, R195, R197, R205, R220). A sample of `rst` is taken at every step; a command word or
a word at the capability is taken when its instruction runs. -/
def step (s : State) : Host.Outcome State Fault Refusal :=
  match fetch s with
  | .reset f         => .next (hardwareReset f (takeSample s))
  | .halted          => .fault .halted
  | .unreachable     => .fault .unreachablePosition
  | .sequencer i     => afterPinOp (exec i (takeSample s))
  | .command i       => exec i (takeCommand (takeSample s))
  | .illegal         => .next (raiseExn .illegalCommand (takeCommand (takeSample s)))
  | .direct i        => exec i (takeDirect (takeSample s))
  | .notATransaction => .refused .notATransaction
  | .hold            => .next (takeSample s)

/-- `s` with an opcode-table row's bits placed so that the next step runs them: a command word on the command
port, or a row of at most 8 bits at the pin capability. Logs 16 and 17. -/
def State.withFetchWord (s : State) (nbits w : Nat) : State :=
  if nbits ≤ 8 then placeDirect (BitVec.ofNat 8 w) s else placeCommand (BitVec.ofNat 32 w) s

end Sys2Proof.Machine
end

