-- ==== Sys2Proof/Machine/Operation.lean ====
section
/-! DEFINITION. `NEW` and `UPDATE` at the operation level (R120, R140), as one computation from acceptance to
result. The sequencer is the small-step form of the same operations and the two must agree (R176). Nothing
of the step uses this file: statements compare the two. -/

namespace Sys2Proof.Machine

/-- The five writes of `NEW` in order (R120). -/
def newWrites : List (Pin × Level) :=
  [(.data, .low), (.clock, .low), (.latch, .low), (.grayscaleClock, .low), (.blank, .high)]

/-- The five writes of one shift iteration (R142). -/
def shiftIteration (gs : Buffer) (c : Fin 16) (b : Nat) : List (Pin × Level) :=
  [(.data, lvl (dataBit gs c b)), (.clock, .high), (.clock, .low),
   (.grayscaleClock, .high), (.grayscaleClock, .low)]

/-- The three writes of one pad iteration (R143). -/
def padIteration : List (Pin × Level) :=
  [(.data, .low), (.grayscaleClock, .high), (.grayscaleClock, .low)]

/-- The shift iterations: `CH` = 15 down to 0, and inside each `BIT` = 11 down to 0 (R140, R142). -/
def shiftWrites (gs : Buffer) : List (Pin × Level) :=
  (List.finRange 16).reverse.flatMap fun c =>
    (List.range Config.GSBITS).reverse.flatMap fun b => shiftIteration gs c b

/-- The pad iterations (R140, R143). -/
def padWrites : List (Pin × Level) :=
  (List.replicate Config.PAD_PULSES padIteration).flatten

/-- The three writes of the commit phase (R145). -/
def commitWrites : List (Pin × Level) :=
  [(.blank, .high), (.latch, .high), (.latch, .low)]

/-- Every write of one `UPDATE` from the buffer `gs`, in order (R140). -/
def updateWrites (gs : Buffer) : List (Pin × Level) :=
  (.blank, .low) :: (shiftWrites gs ++ (padWrites ++ commitWrites))

/-- The writes of a list made one after another, stopping at the first failure, whose error is returned: the
`?` of 00_scope.md section 6. -/
def runWrites : List (Pin × Level) → State → Option PinErr × State
  | [], s => (none, s)
  | w :: ws, s =>
    match (pinWrite w.1 w.2 s).ret with
    | .ok    => runWrites ws (pinWrite w.1 w.2 s)
    | .err e => (some e, pinWrite w.1 w.2 s)

/-- `NEW` as one operation (R120), but for the position registers, which are the sequencer's. -/
def operationNew (s : State) : State :=
  match runWrites newWrites { s with ph := .constructing } with
  | (none, t)   => respond .ok { t with gs := bufFill 0, ph := .idle }
  | (some e, t) => respond (.pinErr e) (forgetBuffer { t with ph := .uninit })

/-- `UPDATE` as one operation (R140, R146), but for the position registers. -/
def operationUpdate (s : State) : State :=
  match runWrites (updateWrites s.gs) s with
  | (none, t)   => respond .ok { t with ph := .idle }
  | (some e, t) => respond (.pinErr e) { t with ph := .failed }

/-- Event number `n` of a successful `UPDATE`, in closed form (the table of R151). -/
def updateEvent (gs : Buffer) (n : Nat) : Pin × Level :=
  if n = 0 then (.blank, .low)
  else if n ≤ 960 then
    match (n - 1) % 5 with
    | 0 => (.data, lvl (dataBit gs (Fin.ofNat 16 (15 - (n - 1) / 5 / 12)) (11 - (n - 1) / 5 % 12)))
    | 1 => (.clock, .high)
    | 2 => (.clock, .low)
    | 3 => (.grayscaleClock, .high)
    | _ => (.grayscaleClock, .low)
  else if n ≤ 12672 then
    match (n - 961) % 3 with
    | 0 => (.data, .low)
    | 1 => (.grayscaleClock, .high)
    | _ => (.grayscaleClock, .low)
  else if n = 12673 then (.blank, .high)
  else if n = 12674 then (.latch, .high)
  else (.latch, .low)

/-- The serial frame, format F (R79): bit `k` is `GS[15 - k div 12][11 - k mod 12]`. -/
def frameBit (gs : Buffer) (k : Nat) : Bool :=
  dataBit gs (Fin.ofNat 16 (15 - k / 12)) (11 - k % 12)

/-- The levels of the data line that were written last before each rise of the clock, in order (R79, S1):
what one clock pulse after another shifts into a receiver. -/
def clockedLevels : Option Level → List (Pin × Level) → List (Option Level)
  | _, [] => []
  | _, (.data, l) :: ws => clockedLevels (some l) ws
  | d, (.clock, .high) :: ws => d :: clockedLevels d ws
  | d, (.clock, .low) :: ws => clockedLevels d ws
  | d, (.blank, _) :: ws => clockedLevels d ws
  | d, (.latch, _) :: ws => clockedLevels d ws
  | d, (.grayscaleClock, _) :: ws => clockedLevels d ws

end Sys2Proof.Machine
end

