-- ==== Sys2Proof/Safety.lean ====
section
/-! DEFINITION. What statements are made of: runs, when `rst` is asserted, the sequencer's legal positions
(R177, R178), what the lines hold in each phase (R120, R142 to R145, R152), and equality but for the position
registers. -/

namespace Sys2Proof.Machine

/-- `n` steps of the machine (R7). -/
def run (n : Nat) (s : State) : Host.Outcome State Fault Refusal := Host.Core.run Sys2Proof.core n s

/-- `rst` is asserted at the next step (R70, R220). -/
def rstHigh (s : State) : Bool :=
  match s.rst with
  | .high _ :: _ => true
  | .low :: _    => false
  | []           => false

/-- The state after the pin write of a step, before the position is updated (R160). -/
abbrev written (s : State) (p : Pin) (l : Level) : State := pinWrite p l (takeSample s)

/-- The answer is an error. -/
def isErr : Answer → Bool
  | .ok    => false
  | .err _ => true

/-- The entries a list of writes leaves in the trace when every one is answered `Ok`. -/
def eventsOk (ws : List (Pin × Level)) : List Event :=
  ws.map fun w => { pin := w.1, level := w.2, result := .ok }

/-- The lines a successful `NEW` and a successful `UPDATE` leave (R120, R152). -/
def idleLines : Pins :=
  { data := .low, clock := .low, blank := .high, latch := .low, grayscaleClock := .low }

/-- `s` and `t` are equal but for `CH`, `BIT`, `SUB` and `PULSE`. -/
def sameButPosition (s t : State) : Prop :=
  { s with ch := t.ch, bit := t.bit, sub := t.sub, pulse := t.pulse } = t

/-- The position is one of R177's, with the counter where R178 puts it. -/
def positionOk (s : State) : Bool :=
  match s.ph with
  | .constructing => decide (s.sub.toNat ≤ 4)
  | .transferring =>
    if s.ch.toNat < 16 then
      decide (s.bit.toNat ≤ 11) && decide (s.sub.toNat ≤ 4) &&
        decide (s.pulse.toNat = 12 * (15 - s.ch.toNat) + (11 - s.bit.toNat))
    else
      decide (s.ch = -1) && decide (s.bit = 11) &&
        decide (s.sub = 0 ∨ s.sub = 3 ∨ s.sub = 4) &&
        decide (192 ≤ s.pulse.toNat) && decide (s.pulse.toNat ≤ 4095)
  | .committing =>
    decide (s.ch = -1) && decide (s.bit = 11) && decide (s.sub.toNat ≤ 2) && decide (s.pulse = 4096)
  | .uninit | .idle | .blanking | .failed | .halted => true

/-- The lines in a shift iteration of channel `c`: blank low throughout; data at the bit once it is written
(R62); clock high only between the two halves of its pulse, and low from the first pulse on otherwise; the
grayscale clock likewise. -/
def shiftLinesOk (c : Fin 16) (s : State) : Bool :=
  decide (s.pin.blank = .low) &&
  (decide (s.sub = 0) || decide (s.pin.data = committed (lvl (dataBit s.gs c s.bit.toNat)))) &&
  (if s.sub = 2 then decide (s.pin.clock = .high)
   else decide (s.pin.clock = .low) || (decide (s.sub.toNat ≤ 1) && decide (s.pulse = 0))) &&
  (if s.sub = 4 then decide (s.pin.grayscaleClock = .high)
   else decide (s.pin.grayscaleClock = .low) || decide (s.pulse = 0))

/-- The lines in a pad iteration: blank and clock low, data low once it is written, the grayscale clock high
only between the two halves of its pulse (R143). -/
def padLinesOk (s : State) : Bool :=
  decide (s.pin.blank = .low) && decide (s.pin.clock = .low) &&
  (decide (s.sub = 0) || decide (s.pin.data = .low)) &&
  (if s.sub = 4 then decide (s.pin.grayscaleClock = .high) else decide (s.pin.grayscaleClock = .low))

/-- What the lines hold, phase by phase. In `BLANKING` and in the phases where a failure or a reset may have
left anything, nothing is said. -/
def linesOk (s : State) : Bool :=
  match s.ph with
  | .constructing =>
    (decide (s.sub.toNat < 1) || decide (s.pin.data = .low)) &&
    (decide (s.sub.toNat < 2) || decide (s.pin.clock = .low)) &&
    (decide (s.sub.toNat < 3) || decide (s.pin.latch = .low)) &&
    (decide (s.sub.toNat < 4) || decide (s.pin.grayscaleClock = .low))
  | .idle => decide (s.pin = idleLines)
  | .transferring =>
    match cursorChannel s.ch with
    | some c => shiftLinesOk c s
    | none   => padLinesOk s
  | .committing =>
    decide (s.pin.data = .low) && decide (s.pin.clock = .low) && decide (s.pin.grayscaleClock = .low) &&
    (if s.sub = 0 then decide (s.pin.blank = .low) else decide (s.pin.blank = .high)) &&
    (if s.sub = 2 then decide (s.pin.latch = .high) else true)
  | .uninit | .blanking | .failed | .halted => true

/-- The invariant of a run: a legal position, and the lines as the phase leaves them. -/
def inv (s : State) : Bool := positionOk s && linesOk s

/-- A safe run of `n` steps from `s`: it stops on no fault and no refusal, and does not end in `HALTED`
(R192, R197: "a state a correct run never reaches"). -/
def SafeRun (n : Nat) (s : State) : Prop := ∃ t, run n s = .next t ∧ t.ph ≠ .halted

end Sys2Proof.Machine
end

