-- ==== Sys2Proof/Certificates/Slice0/Obligations.lean ====
section
/-! DEFINITION. The statements for the provers. Each docstring names the rules of spec/ it formalises; where a
clause rests on a choice of this model, it names the log entry. -/

open Sys2Proof Sys2Proof.Machine

/-! ### Reset -/

/-- R30, R220: right after reset `PH` is `UNINIT`, every line is `X` and the trace is empty; the model's own
choice (logs 2, 6, 7, 11) is that the ports are quiet. -/
def Obligations.ResetIsUninitWithLinesUnknown : Prop :=
  State.reset.ph = .uninit ∧ (∀ p, pinLevel State.reset.pin p = .x) ∧ State.reset.tr = [] ∧
  State.reset.cmd = [] ∧ State.reset.rst = [] ∧ State.reset.direct = []

/-- R220, R23, R30: `rst` sets `PH` to `UNINIT` in any state, and every line is `X`: its level is not known
(log 19). Outside a busy phase it writes no pin and does not touch the trace; in every phase no response is
given, and the words presented and the later samples of `rst` stay. -/
def Obligations.HardwareResetReachesUninit : Prop :=
  ∀ (s : State) (f : InFlight) (rest : List RstSample), s.rst = .high f :: rest →
    ∃ t, step s = .next t ∧ t.ph = .uninit ∧ (∀ p, pinLevel t.pin p = .x) ∧
      t.responses = s.responses ∧ t.cmd = s.cmd ∧ t.rst = rest ∧ t.direct = s.direct ∧
      (busy s = false → t.tr = s.tr ∧ t.env = s.env)

/-- R221: in a busy phase whose next write is level `l` on pin `p`, `rst` makes no later write and gives no
response. The write in flight is in the trace or it is not, and nothing is added to the trace if none was in
flight (the choice is log 7). Its line, as every line (log 19), is `X`. -/
def Obligations.ResetMayCutAWriteOff : Prop :=
  ∀ (s : State) (f : InFlight) (rest : List RstSample) (p : Pin) (l : Level),
    s.rst = .high f :: rest → busy s = true → nextWrite s = some (p, l) →
    ∃ t, step s = .next t ∧ t.ph = .uninit ∧ t.responses = s.responses ∧
      (∀ q, pinLevel t.pin q = .x) ∧ busy t = false ∧
      (f = .none → t.tr = s.tr ∧ t.env = s.env) ∧
      (f = .unrecorded → t.tr = s.tr ∧ t.env = s.env) ∧
      (f = .recorded → ∃ r, t.tr = s.tr ++ [{ pin := p, level := l, result := r }])

/-! ### The pin capability -/

/-- R100, R102, R103: a pin write gets the pin environment's answer, is recorded with it, leaves the level on
`Ok` and `X` on `Err(e)`, and returns the answer; no other pin and no register changes. The answer is the head
of the coming answers, or the free value of log 2 when none is left. -/
def Obligations.PinWriteRecordsAndCommits : Prop :=
  ∀ (p : Pin) (l : Level) (s : State), ∃ t r,
    exec (match l with | .low => .setLow p | .high => .setHigh p) s = .next t ∧
    (∀ a rest, s.env = a :: rest → r = a ∧ t.env = rest) ∧
    (s.env = [] → r = Config.pinAnswer s.tr p l ∧ t.env = []) ∧
    t.tr = s.tr ++ [{ pin := p, level := l, result := r }] ∧ t.ret = r ∧
    (r = .ok → pinLevel t.pin p = committed l) ∧ (∀ e, r = .err e → pinLevel t.pin p = .x) ∧
    (∀ q, q ≠ p → pinLevel t.pin q = pinLevel s.pin q) ∧
    { t with tr := s.tr, pin := s.pin, env := s.env, ret := s.ret } = s

/-- R104, R105: `SET_VALUE` of a level or of a bit completes, and is the one write of the operation it
dispatches to: a level is itself, 1 is `High` and 0 is `Low`. -/
def Obligations.SetValueDispatches : Prop :=
  ∀ (p : Pin) (s : State), ∃ t u,
    exec (.setLow p) s = .next t ∧ exec (.setHigh p) s = .next u ∧
    exec (.setValue p (.level .low)) s = .next t ∧ exec (.setValue p (.number 0)) s = .next t ∧
    exec (.setValue p (.level .high)) s = .next u ∧ exec (.setValue p (.number 1)) s = .next u ∧
    t.tr.length = s.tr.length + 1 ∧ u.tr.length = s.tr.length + 1

/-- R105, U10, D26: `SET_VALUE` of anything that is neither a level nor a bit is refused. -/
def Obligations.SetValueRefusesOtherValues : Prop :=
  ∀ (p : Pin) (n : Nat) (s : State), 2 ≤ n →
    exec (.setValue p (.number n)) s = .refused .notConvertible

/-- R106: `PULSE p` completes. If the high write fails the low write is never made and the first error is
returned; otherwise the low write follows at once and its answer is returned. Only the trace, the line `p`,
the coming answers and the returned answer change. -/
def Obligations.PulseIsHighThenLow : Prop :=
  ∀ (p : Pin) (s : State), ∃ t,
    exec (.pulse p) s = .next t ∧
    (∀ e, pinAnswer p .high s = .err e →
      t.tr = s.tr ++ [{ pin := p, level := .high, result := .err e }] ∧
      pinLevel t.pin p = .x ∧ t.ret = .err e ∧ t.env = s.env.tail) ∧
    (pinAnswer p .high s = .ok → ∃ r,
      (∀ a b rest, s.env = a :: b :: rest → r = b) ∧
      t.tr = s.tr ++ [{ pin := p, level := .high, result := .ok },
                      { pin := p, level := .low, result := r }] ∧
      (r = .ok → pinLevel t.pin p = .low) ∧ (∀ e, r = .err e → pinLevel t.pin p = .x) ∧
      t.ret = r ∧ t.env = s.env.tail.tail) ∧
    (∀ q, q ≠ p → pinLevel t.pin q = pinLevel s.pin q) ∧
    { t with tr := s.tr, pin := s.pin, env := s.env, ret := s.ret } = s

/-! ### The controller operations at acceptance -/

/-- R161: the acceptance of `NEW`. (That `CH`, `BIT` and `PULSE` keep their values is log 13.) -/
def Obligations.NewIsAccepted : Prop :=
  ∀ s : State, s.ph = .uninit ∨ s.ph = .idle ∨ s.ph = .failed →
    exec .new s = .next { s with ph := .constructing, sub := 0 }

/-- R163: the acceptance of `UPDATE`. -/
def Obligations.UpdateIsAccepted : Prop :=
  ∀ s : State, s.ph = .idle ∨ s.ph = .failed → exec .update s = .next { s with ph := .blanking }

/-- R130: `SET_CHANNEL` with an index of 0 to 15 stores the whole value in that register, changes no other
register, writes no pin and answers `OK`, with `PH` unchanged. -/
def Obligations.SetChannelStoresTheWholeValue : Prop :=
  ∀ (s : State) (idx : BitVec 8) (val : ChannelValue), s.ph = .idle ∨ s.ph = .failed → idx.toNat ≤ 15 →
    ∃ t, exec (.setChannel idx val) s = .next t ∧
      (∀ i : Fin 16, t.gs[i] = if i.val = idx.toNat then val else s.gs[i]) ∧
      t = { s with gs := t.gs, rsp := .ok, responses := s.responses ++ [.ok] }

/-- R192: `SET_CHANNEL` with an index of 16 to 255 raises `IndexFault`: `HALTED`, `FAULT_INDEX`, nothing else
changes. -/
def Obligations.IndexAboveFifteenHalts : Prop :=
  ∀ (s : State) (idx : BitVec 8) (val : ChannelValue), s.ph = .idle ∨ s.ph = .failed → 16 ≤ idx.toNat →
    exec (.setChannel idx val) s =
      .next { s with ph := .halted, rsp := .faultIndex, responses := s.responses ++ [.faultIndex] }

/-- R131: `SET_ALL` stores the value in every register, writes no pin and answers `OK`, with `PH` unchanged. -/
def Obligations.SetAllStoresInEveryRegister : Prop :=
  ∀ (s : State) (val : ChannelValue), s.ph = .idle ∨ s.ph = .failed →
    ∃ t, exec (.setAll val) s = .next t ∧ (∀ i : Fin 16, t.gs[i] = val) ∧
      t = { s with gs := t.gs, rsp := .ok, responses := s.responses ++ [.ok] }

/-- R132: `CLEAR` zeroes every register, writes no pin and answers `OK`, with `PH` unchanged. -/
def Obligations.ClearZeroesEveryRegister : Prop :=
  ∀ s : State, s.ph = .idle ∨ s.ph = .failed →
    ∃ t, exec .clear s = .next t ∧ (∀ i : Fin 16, t.gs[i] = 0) ∧
      t = { s with gs := t.gs, rsp := .ok, responses := s.responses ++ [.ok] }

/-- R83, R132: the effect of `CLEAR` "is that of `SET_ALL 0` in every state". -/
def Obligations.ClearIsSetAllZero : Prop :=
  ∀ s : State, exec .clear s = exec (.setAll 0) s

/-- R133: setters compose as plain assignments, the last write to a register wins: after `SET_ALL v` and
`SET_CHANNEL i, w` register `i` holds `w` and every other holds `v`, and a second `SET_CHANNEL i, x` leaves
`x` there. -/
def Obligations.SettersComposeAsAssignments : Prop :=
  ∀ (s : State) (v w x : ChannelValue) (idx : BitVec 8), s.ph = .idle ∨ s.ph = .failed → idx.toNat ≤ 15 →
    ∃ a b c, exec (.setAll v) s = .next a ∧ exec (.setChannel idx w) a = .next b ∧
      exec (.setChannel idx x) b = .next c ∧
      (∀ i : Fin 16, b.gs[i] = if i.val = idx.toNat then w else v) ∧
      (∀ i : Fin 16, c.gs[i] = if i.val = idx.toNat then x else v) ∧
      b.tr = s.tr ∧ c.tr = s.tr ∧ c.ph = s.ph

/-- R193, R195: in `UNINIT` every controller operation but `NEW` raises `IllegalCommand`, also a
`SET_CHANNEL` whose index is out of range. -/
def Obligations.UninitAdmitsOnlyNew : Prop :=
  ∀ (s : State) (i : Instr), s.ph = .uninit →
    (i = .clear ∨ i = .update ∨ (∃ v, i = .setAll v) ∨ (∃ idx v, i = .setChannel idx v)) →
    exec i s =
      .next { s with ph := .halted, rsp := .faultIllegal, responses := s.responses ++ [.faultIllegal] }

/-- R75, R193, R195: a word that spells no operation, accepted in any phase that accepts words, raises
`IllegalCommand`: `HALTED`, `FAULT_ILLEGAL`, nothing else changes but that the word is taken. (In `UNINIT`
the words of log 11 come first.) -/
def Obligations.IllegalWordHalts : Prop :=
  ∀ (s : State) (w : CommandWord) (rest : List CommandWord) (e : DecodeError),
    cmdReady s = true → rstHigh s = false → (s.ph = .uninit → s.direct = []) →
    s.cmd = w :: rest → decodeCommand w = .error e →
    step s = .next { s with
      cmd := rest, rst := s.rst.tail, ph := .halted, rsp := .faultIllegal,
      responses := s.responses ++ [.faultIllegal] }

/-- R134, R147, D16: nothing distinguishes `FAILED` from `IDLE` for the setters and for `UPDATE`: the register
contents and the answer are the same, and `UPDATE` starts again from the blank-low write. -/
def Obligations.FailedAdmitsWhatIdleAdmits : Prop :=
  ∀ (s : State) (i : Instr), s.ph = .failed →
    (i = .clear ∨ (∃ v, i = .setAll v) ∨ (∃ idx v, i = .setChannel idx v ∧ idx.toNat ≤ 15) →
      ∃ t u, exec i s = .next t ∧ exec i { s with ph := .idle } = .next u ∧
        t.ph = .failed ∧ u = { t with ph := .idle }) ∧
    exec .update s = exec .update { s with ph := .idle } ∧
    (∃ t, exec .update s = .next t ∧ nextWrite t = some (.blank, .low))

/-! ### Holds and stops -/

/-- R74: while an operation runs the port takes no word: whatever step is made without `rst`, the words
presented stay as they are, and an operation offered to a busy block changes nothing (log 12). -/
def Obligations.BusyBlockTakesNoCommand : Prop :=
  (∀ s t : State, busy s = true → rstHigh s = false → step s = .next t → t.cmd = s.cmd) ∧
  (∀ (s : State) (i : Instr), busy s = true →
    (i = .new ∨ i = .clear ∨ i = .update ∨ (∃ v, i = .setAll v) ∨ (∃ idx v, i = .setChannel idx v)) →
    exec i s = .next s)

/-- R197: in `HALTED` no step is made; the only way out is `rst`, which writes no pin and leaves the trace.
(That the step answers a fault there is log 9, after "A model treats `HALTED` as a fault state".) -/
def Obligations.HaltedIsLeftOnlyByReset : Prop :=
  ∀ s : State, s.ph = .halted →
    (rstHigh s = false → step s = .fault .halted) ∧
    (rstHigh s = true → ∃ t, step s = .next t ∧ t.ph = .uninit ∧ t.tr = s.tr ∧ t.env = s.env)

/-- R150, R205: between operations, with nothing presented, the block holds its state and does nothing. -/
def Obligations.ReadyBlockHoldsWithoutACommand : Prop :=
  ∀ s : State, s.ph = .idle ∨ s.ph = .failed ∨ (s.ph = .uninit ∧ s.direct = []) →
    rstHigh s = false → s.cmd = [] → step s = .next { s with rst := s.rst.tail }

/-! ### A step runs the selected instruction -/

/-- R74, R195: a ready block accepts the word on its port and runs the operation it spells. (In `UNINIT` the
words of log 11 come first.) -/
def Obligations.StepRunsTheAcceptedCommand : Prop :=
  ∀ (s : State) (w : CommandWord) (rest : List CommandWord) (i : Instr),
    cmdReady s = true → rstHigh s = false → (s.ph = .uninit → s.direct = []) →
    s.cmd = w :: rest → decodeCommand w = .ok i →
    step s = exec i { s with cmd := rest, rst := s.rst.tail }

/-- R160: in a busy phase a step is the pin operation the position asks for and then the update of the
position. -/
def Obligations.StepRunsTheSequencersPinOperation : Prop :=
  ∀ (s : State) (i : Instr), rstHigh s = false → nextPinOp s = some i →
    busy s = true ∧
    ∃ t, exec i { s with rst := s.rst.tail } = .next t ∧ step s = .next (advance t)

/-- The model's own (log 11): in `UNINIT` a word presented at the pin capability runs the operation it
spells. -/
def Obligations.StepRunsADirectPinOperation : Prop :=
  ∀ (s : State) (b : PinByte) (rest : List PinByte) (i : Instr),
    s.ph = .uninit → rstHigh s = false → s.direct = b :: rest → decodeByte b = .ok i →
    step s = exec i { s with direct := rest, rst := s.rst.tail }

/-! ### The sequencer, one step at a time -/

/-- R162: the steps of `CONSTRUCTING` on `Ok`, by `SUB`; the fifth zeroes the buffer, enters `IDLE` and answers
`OK`. (That `CH`, `BIT` and `PULSE` then keep their values is log 13.) -/
def Obligations.ConstructionStepsOnOk : Prop :=
  ∀ s : State, s.ph = .constructing → rstHigh s = false →
    (s.sub = 0 → (written s .data .low).ret = .ok → step s = .next { written s .data .low with sub := 1 }) ∧
    (s.sub = 1 → (written s .clock .low).ret = .ok → step s = .next { written s .clock .low with sub := 2 }) ∧
    (s.sub = 2 → (written s .latch .low).ret = .ok → step s = .next { written s .latch .low with sub := 3 }) ∧
    (s.sub = 3 → (written s .grayscaleClock .low).ret = .ok →
      step s = .next { written s .grayscaleClock .low with sub := 4 }) ∧
    (s.sub = 4 → (written s .blank .high).ret = .ok →
      ∃ t, step s = .next t ∧ (∀ i : Fin 16, t.gs[i] = 0) ∧
        t = { written s .blank .high with
              gs := t.gs, ph := .idle, sub := 0, rsp := .ok, responses := s.responses ++ [.ok] })

/-- R162, R196: a failed write of `NEW` leaves `UNINIT` and answers `PIN_ERR(e)` with `e` unchanged; the
position keeps its values. (The buffer is unspecified: it takes the free value of log 4; that `CH`,
`BIT` and `PULSE` keep their values, where R30 calls them unspecified, is log 13.) -/
def Obligations.FailedConstructionStep : Prop :=
  ∀ (s : State) (p : Pin) (l : Level) (e : PinErr), s.ph = .constructing → rstHigh s = false →
    nextWrite s = some (p, l) → (written s p l).ret = .err e →
    ∃ t, step s = .next t ∧
      t = { written s p l with
            ph := .uninit, gs := Config.freeBuffer s.draws, draws := s.draws + 1,
            rsp := .pinErr e, responses := s.responses ++ [.pinErr e] }

/-- R164: the step in `BLANKING` on `Ok`. -/
def Obligations.BlankingStepOnOk : Prop :=
  ∀ s : State, s.ph = .blanking → rstHigh s = false →
    (written s .blank .low).ret = .ok →
    step s = .next { written s .blank .low with
      ph := .transferring, ch := 15, bit := 11, sub := 0, pulse := 0 }

/-- R165 to R168: the first four steps of a shift iteration on `Ok`: data at `GS[CH][BIT]`, clock high, clock
low, grayscale_clock high. -/
def Obligations.ShiftIterationStepsOnOk : Prop :=
  ∀ (s : State) (c : Fin 16), s.ph = .transferring → rstHigh s = false →
    s.ch.toNat = c.val → s.bit.toNat ≤ 11 →
    (s.sub = 0 → (written s .data (lvl (s.gs[c].getLsbD s.bit.toNat))).ret = .ok →
      step s = .next { written s .data (lvl (s.gs[c].getLsbD s.bit.toNat)) with sub := 1 }) ∧
    (s.sub = 1 → (written s .clock .high).ret = .ok → step s = .next { written s .clock .high with sub := 2 }) ∧
    (s.sub = 2 → (written s .clock .low).ret = .ok → step s = .next { written s .clock .low with sub := 3 }) ∧
    (s.sub = 3 → (written s .grayscaleClock .high).ret = .ok →
      step s = .next { written s .grayscaleClock .high with sub := 4 })

/-- R169: the last step of a shift iteration on `Ok`: `PULSE` counts, the bit position goes down, and after
bit 0 the cursor goes down by 1 with the bit position back at 11. The test of `PULSE`
against 4096 is stated for the positions of R178, where it is never true. -/
def Obligations.ShiftIterationEndsOnOk : Prop :=
  ∀ s : State, s.ph = .transferring → rstHigh s = false → positionOk s = true →
    s.ch.toNat ≤ 15 → s.sub = 4 →
    (written s .grayscaleClock .low).ret = .ok →
    (s.bit ≠ 0 → step s = .next { written s .grayscaleClock .low with
      pulse := s.pulse + 1, sub := 0, bit := s.bit - 1 }) ∧
    (s.bit = 0 → step s = .next { written s .grayscaleClock .low with
      pulse := s.pulse + 1, sub := 0, bit := 11, ch := s.ch - 1 })

/-- R170, R171: the first two steps of a pad iteration on `Ok`: data low, grayscale_clock high, and no clock
pulse: `SUB` 1 and 2 are no legal positions there. -/
def Obligations.PadIterationStepsOnOk : Prop :=
  ∀ s : State, s.ph = .transferring → rstHigh s = false → s.ch = -1 →
    (positionOk s = true → s.sub ≠ 1 ∧ s.sub ≠ 2) ∧
    (s.sub = 0 → (written s .data .low).ret = .ok → step s = .next { written s .data .low with sub := 3 }) ∧
    (s.sub = 3 → (written s .grayscaleClock .high).ret = .ok →
      step s = .next { written s .grayscaleClock .high with sub := 4 })

/-- R172: the last step of a pad iteration on `Ok`: `PULSE` counts, `BIT` and `CH` stay, and `COMMITTING` is
entered exactly when `PULSE` reaches 4096. -/
def Obligations.PadIterationEndsOnOk : Prop :=
  ∀ s : State, s.ph = .transferring → rstHigh s = false → s.ch = -1 → s.sub = 4 →
    (written s .grayscaleClock .low).ret = .ok →
    (s.pulse = 4095 → step s = .next { written s .grayscaleClock .low with
      pulse := 4096, sub := 0, ph := .committing }) ∧
    (s.pulse ≠ 4095 → step s = .next { written s .grayscaleClock .low with
      pulse := s.pulse + 1, sub := 0 })

/-- R173: the steps of `COMMITTING` on `Ok`: blank high, latch high, latch low, then `IDLE` and `OK`. -/
def Obligations.CommitStepsOnOk : Prop :=
  ∀ s : State, s.ph = .committing → rstHigh s = false →
    (s.sub = 0 → (written s .blank .high).ret = .ok → step s = .next { written s .blank .high with sub := 1 }) ∧
    (s.sub = 1 → (written s .latch .high).ret = .ok → step s = .next { written s .latch .high with sub := 2 }) ∧
    (s.sub = 2 → (written s .latch .low).ret = .ok →
      step s = .next { written s .latch .low with
        ph := .idle, sub := 0, rsp := .ok, responses := s.responses ++ [.ok] })

/-- R174, R196: a failed write of `UPDATE` leaves `FAILED` and answers `PIN_ERR(e)` with `e` unchanged; `CH`,
`BIT`, `SUB`, `PULSE` and `GS` keep their values. -/
def Obligations.FailedUpdateStep : Prop :=
  ∀ (s : State) (p : Pin) (l : Level) (e : PinErr),
    s.ph = .blanking ∨ s.ph = .transferring ∨ s.ph = .committing → rstHigh s = false →
    nextWrite s = some (p, l) → (written s p l).ret = .err e →
    ∃ t, step s = .next t ∧
      t = { written s p l with
            ph := .failed, rsp := .pinErr e, responses := s.responses ++ [.pinErr e] } ∧
      t.ch = s.ch ∧ t.bit = s.bit ∧ t.sub = s.sub ∧ t.pulse = s.pulse ∧ t.gs = s.gs

/-- R70, R76, R177: the pin transaction on the port, position by position; outside the busy phases there is none,
and `pw_valid` is 1 exactly when there is one. -/
def Obligations.PinPortShowsTheNextWrite : Prop :=
  ∀ s : State,
    (busy s = false → pw s = none) ∧
    (pwValid s = true ↔ ∃ w, pw s = some w) ∧
    (s.ph = .constructing →
      (s.sub = 0 → pw s = some 0b0000#4) ∧ (s.sub = 1 → pw s = some 0b0010#4) ∧
      (s.sub = 2 → pw s = some 0b0110#4) ∧ (s.sub = 3 → pw s = some 0b1000#4) ∧
      (s.sub = 4 → pw s = some 0b0101#4)) ∧
    (s.ph = .blanking → pw s = some 0b0100#4) ∧
    (s.ph = .transferring → ∀ c : Fin 16, s.ch.toNat = c.val → s.bit.toNat ≤ 11 →
      (s.sub = 0 → pw s = some (if s.gs[c].getLsbD s.bit.toNat then 0b0001#4 else 0b0000#4)) ∧
      (s.sub = 1 → pw s = some 0b0011#4) ∧ (s.sub = 2 → pw s = some 0b0010#4) ∧
      (s.sub = 3 → pw s = some 0b1001#4) ∧ (s.sub = 4 → pw s = some 0b1000#4)) ∧
    (s.ph = .transferring → s.ch = -1 →
      (s.sub = 0 → pw s = some 0b0000#4) ∧ (s.sub = 3 → pw s = some 0b1001#4) ∧
      (s.sub = 4 → pw s = some 0b1000#4)) ∧
    (s.ph = .committing →
      (s.sub = 0 → pw s = some 0b0101#4) ∧ (s.sub = 1 → pw s = some 0b0111#4) ∧
      (s.sub = 2 → pw s = some 0b0110#4))

/-- R151, R178: at a legal position of `UPDATE` the next write is the event of that number in the table of
R151. -/
def Obligations.PositionNamesTheEventNumber : Prop :=
  ∀ s : State, positionOk s = true →
    (s.ph = .blanking → nextWrite s = some (updateEvent s.gs 0)) ∧
    (s.ph = .transferring → s.ch.toNat ≤ 15 →
      s.pulse.toNat ≤ 191 ∧
      nextWrite s = some (updateEvent s.gs (1 + 5 * s.pulse.toNat + s.sub.toNat))) ∧
    (s.ph = .transferring → s.ch = -1 →
      nextWrite s = some (updateEvent s.gs
        (961 + 3 * (s.pulse.toNat - 192) + (if s.sub = 0 then 0 else s.sub.toNat - 2)))) ∧
    (s.ph = .committing → nextWrite s = some (updateEvent s.gs (12673 + s.sub.toNat)))

/-! ### Whole-machine rules -/

/-- The invariant at reset. -/
def Obligations.ResetMeetsTheInvariant : Prop := inv State.reset = true

/-- R120, R142 to R145, R152, R177, R178: every step, whatever the answers and the reset input, keeps the
position legal and the lines as the phase leaves them. -/
def Obligations.EveryStepKeepsTheInvariant : Prop :=
  ∀ s t : State, inv s = true → step s = .next t → inv t = true

/-- R177: from a legal position the step never meets an unreachable one, and the only fault left is that of
`HALTED` (R197). -/
def Obligations.LegalPositionsMeetNoUnreachableOne : Prop :=
  ∀ (s : State) (f : Fault), positionOk s = true → step s = .fault f → f = .halted ∧ s.ph = .halted

/-- R25: the phase transitions, with their events; any pair not listed does not occur. (In `UNINIT` a step may
also be an operation of log 11, which leaves the phase.) -/
def Obligations.PhaseTransitionsAreComplete : Prop :=
  ∀ s t : State, step s = .next t →
    (rstHigh s = true → t.ph = .uninit) ∧
    (rstHigh s = false →
      match s.ph with
      | .constructing =>
        (isErr t.ret = false ∧ (if s.sub = 4 then t.ph = .idle else t.ph = .constructing)) ∨
        (isErr t.ret = true ∧ t.ph = .uninit)
      | .blanking => if isErr t.ret then t.ph = .failed else t.ph = .transferring
      | .transferring =>
        (isErr t.ret = true ∧ t.ph = .failed) ∨
        (isErr t.ret = false ∧ t.ph = .transferring ∧ ¬ (s.sub = 4 ∧ t.pulse = 4096)) ∨
        (isErr t.ret = false ∧ t.ph = .committing ∧ s.sub = 4 ∧ t.pulse = 4096)
      | .committing =>
        (isErr t.ret = false ∧ (if s.sub = 2 then t.ph = .idle else t.ph = .committing)) ∨
        (isErr t.ret = true ∧ t.ph = .failed)
      | .halted => False
      | .uninit =>
        if s.direct ≠ [] then t.ph = .uninit
        else match s.cmd with
          | [] => t.ph = .uninit
          | w :: _ => if decodeCommand w = .ok .new then t.ph = .constructing else t.ph = .halted
      | .idle | .failed =>
        match s.cmd with
        | [] => t.ph = s.ph
        | w :: _ =>
          match decodeCommand w with
          | .ok .new => t.ph = .constructing
          | .ok .update => t.ph = .blanking
          | .ok (.setChannel idx _) => if idx.toNat ≤ 15 then t.ph = s.ph else t.ph = .halted
          | .ok (.setAll _) | .ok .clear => t.ph = s.ph
          | _ => t.ph = .halted)

/-- R21, R22, R148: without `rst`, no step of `UPDATE` writes a channel register; more, only the end of `NEW`,
a failed `NEW` and an accepted setter do. -/
def Obligations.OnlyNewAndSettersWriteTheBuffer : Prop :=
  ∀ s t : State, rstHigh s = false → step s = .next t → t.gs ≠ s.gs →
    s.ph = .constructing ∨
    ((s.ph = .idle ∨ s.ph = .failed) ∧ ∃ w rest i, s.cmd = w :: rest ∧ decodeCommand w = .ok i ∧
      (i = .clear ∨ (∃ v, i = .setAll v) ∨ (∃ idx v, i = .setChannel idx v)))

/-- R61, R160, R225: without `rst`, a step in a busy phase appends exactly one event to the trace, the write
the position asks for, and a step in any other phase appends none (operations of log 11 apart). -/
def Obligations.OneEventAStepAndOnlyWhileBusy : Prop :=
  ∀ s t : State, rstHigh s = false → step s = .next t →
    (busy s = true → ∃ p l, nextWrite s = some (p, l) ∧
      t.tr = s.tr ++ [{ pin := p, level := l, result := pinAnswer p l s }]) ∧
    (busy s = false → s.ph ≠ .uninit ∨ s.direct = [] →
      t.tr = s.tr ∧ t.pin = s.pin ∧ t.env = s.env)

/-- R23: `PIN[p]` changes only by a pin write of this block on that pin, which is in the trace, or by `rst`,
which makes it `X` (log 19). -/
def Obligations.LinesChangeOnlyByPinWrites : Prop :=
  ∀ (s t : State) (p : Pin), step s = .next t → pinLevel t.pin p ≠ pinLevel s.pin p →
    (rstHigh s = true ∧ pinLevel t.pin p = .x) ∨
    ∃ evs, t.tr = s.tr ++ evs ∧ ∃ ev ∈ evs, ev.pin = p

/-- R23: a line that is `X` stays `X` until a write on its pin succeeds, and then has that write's level. -/
def Obligations.UnknownUntilAWriteSucceeds : Prop :=
  ∀ (s t : State) (p : Pin), step s = .next t → pinLevel s.pin p = .x → pinLevel t.pin p ≠ .x →
    ∃ evs, t.tr = s.tr ++ evs ∧
      ∃ ev ∈ evs, ev.pin = p ∧ ev.result = .ok ∧ pinLevel t.pin p = committed ev.level

/-- R23: "The block never reads `PIN`": with other levels on the lines a step does the same in everything
but the lines, and the writes it records are the same. -/
def Obligations.TheBlockNeverReadsTheLines : Prop :=
  ∀ (s : State) (pins : Pins) (t : State), step s = .next t →
    ∃ u, step { s with pin := pins } = .next u ∧ { u with pin := t.pin } = t

/-- R27, R70: without `rst`, `RSP` changes only when an operation finishes: a step either gives no response
and leaves `RSP`, or gives exactly one and `RSP` holds it. -/
def Obligations.ResponsesAreHeldInRsp : Prop :=
  ∀ s t : State, rstHigh s = false → step s = .next t →
    (t.responses = s.responses ∧ t.rsp = s.rsp) ∨
    (∃ r, t.responses = s.responses ++ [r] ∧ t.rsp = r ∧ busy t = false)

/-- R70, R193: `cmd_ready` is 1 exactly in the phases that are neither busy nor `HALTED`, and those are the
phases in which a word that spells `NEW` is admitted. -/
def Obligations.CommandReadyExactlyWhenNewIsAdmitted : Prop :=
  ∀ s : State,
    (cmdReady s = true ↔ (busy s = false ∧ s.ph ≠ .halted)) ∧
    (cmdReady s = true ↔ admitsNew s.ph = true)

/-- R24, R70, R78: the codes of the eight phases, `BUSY`, and the response port: `rsp_status` 0 to 3 for the four
results, with the error of a failed pin write, unchanged, on `rsp_err`. -/
def Obligations.PortsShowThePhaseAndTheResult : Prop :=
  (∀ s : State, busy s = true ↔
    s.ph = .constructing ∨ s.ph = .blanking ∨ s.ph = .transferring ∨ s.ph = .committing) ∧
  phaseCode .uninit = 0 ∧ phaseCode .constructing = 1 ∧ phaseCode .idle = 2 ∧ phaseCode .blanking = 3 ∧
  phaseCode .transferring = 4 ∧ phaseCode .committing = 5 ∧ phaseCode .failed = 6 ∧ phaseCode .halted = 7 ∧
  (∀ s : State, s.rsp = .ok → rspStatus s = 0) ∧
  (∀ (s : State) (e : PinErr), s.rsp = .pinErr e → rspStatus s = 1 ∧ rspErr s = some e) ∧
  (∀ s : State, s.rsp = .faultIndex → rspStatus s = 2) ∧
  (∀ s : State, s.rsp = .faultIllegal → rspStatus s = 3)

/-! ### Encoding -/

/-- R72, R76, the opcode table: words written out from the tables decode to their instructions. -/
def Obligations.TableWordsDecode : Prop :=
  decode (.command 0x10000000#32) = .ok .new ∧
  decode (.command 0x20030555#32) = .ok (.setChannel 3 0x555) ∧
  decode (.command 0x20FF1234#32) = .ok (.setChannel 255 0x1234) ∧
  decode (.command 0x30000AAA#32) = .ok (.setAll 0xAAA) ∧
  decode (.command 0x40000000#32) = .ok .clear ∧
  decode (.command 0x50000000#32) = .ok .update ∧
  decode (.transaction 0b0100#4) = .ok (.setLow .blank) ∧
  decode (.transaction 0b1001#4) = .ok (.setHigh .grayscaleClock) ∧
  decode (.transactions 0b0011#4 0b0010#4) = .ok (.pulse .clock)

/-- R72, R75: a word spells the operation of a row exactly when `(w AND mask) = match`, with its fields where
R71 puts them, and a word that matches no row is illegal. -/
def Obligations.WordsSpellExactlyTheirRows : Prop :=
  ∀ (w : CommandWord) (i : Instr),
    decodeCommand w = .ok i ↔
      (w &&& 0xFFFFFFFF#32 = 0x10000000#32 ∧ i = .new) ∨
      (w &&& 0xFF000000#32 = 0x20000000#32 ∧
        i = .setChannel (w.extractLsb' 16 8) (w.extractLsb' 0 16)) ∨
      (w &&& 0xFFFF0000#32 = 0x30000000#32 ∧ i = .setAll (w.extractLsb' 0 16)) ∨
      (w &&& 0xFFFFFFFF#32 = 0x40000000#32 ∧ i = .clear) ∨
      (w &&& 0xFFFFFFFF#32 = 0x50000000#32 ∧ i = .update)

/-- R71 to R77, R83: decoding the bits of any well-formed instruction gives it back, with every operand;
`SET_VALUE`, which has no transaction of its own, gives the operation it dispatches to. -/
def Obligations.DecodingAnEncodingGivesItBack : Prop :=
  ∀ i : Instr, i.wellFormed = true → decode (encode i) = .ok (onPort i)

/-- R83, R107: on the pin port only `SET_LOW` and `SET_HIGH` ever appear: the transaction on the port decodes to
one of them, which is the operation that appears for the one the position asks for and has its effect; and a
transaction is on the port only when the position asks for an operation. -/
def Obligations.OnlySetLowAndSetHighOnThePinPort : Prop :=
  (∀ (s : State) (i : Instr), nextPinOp s = some i →
    ∃ w j p, pw s = some w ∧ decode (.transaction w) = .ok j ∧ (j = .setLow p ∨ j = .setHigh p) ∧
      j = onPort i ∧ exec j s = exec i s) ∧
  (∀ (s : State) (w : PinWord), pw s = some w → ∃ i, nextPinOp s = some i)

/-! ### The update as a whole -/

/-- R151: the writes of one `UPDATE`, in the order of R140's loops, are the events of R151's table. -/
def Obligations.UpdateWritesAreTheTable : Prop :=
  ∀ gs : Buffer, updateWrites gs = (List.range 12676).map (updateEvent gs)

/-- R144: the totals of one `UPDATE`, whatever the buffer holds. -/
def Obligations.UpdateTotals : Prop :=
  ∀ gs : Buffer,
    (updateWrites gs).length = 12676 ∧
    ((updateWrites gs).filter (fun w => w.1 = .data)).length = 4096 ∧
    (updateWrites gs).count (.clock, .high) = 192 ∧ (updateWrites gs).count (.clock, .low) = 192 ∧
    (updateWrites gs).count (.grayscaleClock, .high) = 4096 ∧
    (updateWrites gs).count (.grayscaleClock, .low) = 4096 ∧
    (updateWrites gs).count (.blank, .low) = 1 ∧ (updateWrites gs).count (.blank, .high) = 1 ∧
    (updateWrites gs).count (.latch, .high) = 1 ∧ (updateWrites gs).count (.latch, .low) = 1

/-- R53, R62, R79: the levels on the data line at the 192 rises of the clock are the frame: bit `k` is
`GS[15 - k div 12][11 - k mod 12]`, each written before its clock pulse. -/
def Obligations.ClockedLevelsAreTheFrame : Prop :=
  ∀ gs : Buffer,
    clockedLevels none (updateWrites gs) =
      (List.range 192).map fun k =>
        some (if gs[15 - k / 12]!.getLsbD (11 - k % 12) then Level.high else Level.low)

/-- R10, R73: bits 15 to 12 of a register are in no frame: buffers that agree on bits 11 to 0 of every register
give the same writes. -/
def Obligations.HighBitsAreIgnored : Prop :=
  ∀ gs gs' : Buffer, (∀ i : Fin 16, gs[i].extractLsb' 0 12 = gs'[i].extractLsb' 0 12) →
    updateWrites gs = updateWrites gs'

/-- R120, R176: from the acceptance of `NEW`, whatever the pin environment answers, at most 5 steps end the
operation, and the state they leave is that of `NEW` as one operation but for the position registers. -/
def Obligations.NewRunsToItsResult : Prop :=
  ∀ s : State, s.ph = .uninit ∨ s.ph = .idle ∨ s.ph = .failed → s.rst = [] →
    ∃ n u t, exec .new s = .next u ∧ 1 ≤ n ∧ n ≤ 5 ∧ run n u = .next t ∧ busy t = false ∧
      sameButPosition (operationNew s) t

/-- R123: the trace, the result and the lines of `NEW`, row by row of R123's table: with every answer `Ok` it
completes in `IDLE` with a zeroed buffer; with the first failure at write `f` it ends in `UNINIT` after that
write, and the lines it did not reach are unchanged. -/
def Obligations.NewTraceIsTheTable : Prop :=
  ∀ (s : State) (e : PinErr) (rest : List Answer),
    s.ph = .uninit ∨ s.ph = .idle ∨ s.ph = .failed → s.rst = [] →
    let ok := fun (p : Pin) (l : Level) => ({ pin := p, level := l, result := .ok } : Event)
    let bad := fun (p : Pin) (l : Level) => ({ pin := p, level := l, result := .err e } : Event)
    let fails := fun (t : State) =>
      t.ph = .uninit ∧ t.rsp = .pinErr e ∧ t.responses = s.responses ++ [.pinErr e]
    ∃ u, exec .new s = .next u ∧
      (s.env = [.ok, .ok, .ok, .ok, .ok] ++ rest → ∃ t, run 5 u = .next t ∧
        t.tr = s.tr ++ [ok .data .low, ok .clock .low, ok .latch .low, ok .grayscaleClock .low,
          ok .blank .high] ∧
        t.ph = .idle ∧ t.rsp = .ok ∧ t.responses = s.responses ++ [.ok] ∧ t.pin = idleLines ∧
        (∀ i : Fin 16, t.gs[i] = 0) ∧ t.sub = 0) ∧
      (s.env = [.err e] ++ rest → ∃ t, run 1 u = .next t ∧ fails t ∧
        t.tr = s.tr ++ [bad .data .low] ∧ t.pin = { s.pin with data := .x } ∧ t.sub = 0) ∧
      (s.env = [.ok, .err e] ++ rest → ∃ t, run 2 u = .next t ∧ fails t ∧
        t.tr = s.tr ++ [ok .data .low, bad .clock .low] ∧
        t.pin = { s.pin with data := .low, clock := .x } ∧ t.sub = 1) ∧
      (s.env = [.ok, .ok, .err e] ++ rest → ∃ t, run 3 u = .next t ∧ fails t ∧
        t.tr = s.tr ++ [ok .data .low, ok .clock .low, bad .latch .low] ∧
        t.pin = { s.pin with data := .low, clock := .low, latch := .x } ∧ t.sub = 2) ∧
      (s.env = [.ok, .ok, .ok, .err e] ++ rest → ∃ t, run 4 u = .next t ∧ fails t ∧
        t.tr = s.tr ++ [ok .data .low, ok .clock .low, ok .latch .low, bad .grayscaleClock .low] ∧
        t.pin = { s.pin with data := .low, clock := .low, latch := .low, grayscaleClock := .x } ∧
        t.sub = 3) ∧
      (s.env = [.ok, .ok, .ok, .ok, .err e] ++ rest → ∃ t, run 5 u = .next t ∧ fails t ∧
        t.tr = s.tr ++ [ok .data .low, ok .clock .low, ok .latch .low, ok .grayscaleClock .low,
          bad .blank .high] ∧
        t.pin = { data := .low, clock := .low, blank := .x, latch := .low, grayscaleClock := .low } ∧
        t.sub = 4)

/-- R140, R151, R152: `UPDATE` with every answer `Ok` completes: after its 12676 writes, which are the table of
R151 in order, the block is in `IDLE` with `OK`, the lines are the idle lines whatever they were before,
`GS` is unchanged, `PULSE` is 4096 and `CH` is -1; nothing else has changed. -/
def Obligations.UpdateRunsToCompletion : Prop :=
  ∀ (s : State) (rest : List Answer), s.ph = .idle ∨ s.ph = .failed → s.rst = [] →
    s.env = List.replicate 12676 .ok ++ rest →
    ∃ u t, exec .update s = .next u ∧ run 12676 u = .next t ∧
      t = { s with
        tr := s.tr ++ eventsOk ((List.range 12676).map (updateEvent s.gs))
        ph := .idle, pin := idleLines, ch := -1, bit := 11, sub := 0, pulse := 4096
        rsp := .ok, responses := s.responses ++ [.ok], env := rest, ret := .ok }

/-- R146, R151, R174: with a first failure at write `f` of `UPDATE`, writes 0 to `f` and no other are made, the
block is in `FAILED` with the error unchanged, the failing line is `X`, `GS` is unchanged and the position
is the one that selected the failing write; in the transfer phase (R151's events 1 to 12672) neither blank is
driven high nor latch pulsed. -/
def Obligations.UpdateFailsAtTheFirstError : Prop :=
  ∀ (s : State) (rest : List Answer) (f : Nat) (e : PinErr), s.ph = .idle ∨ s.ph = .failed → s.rst = [] →
    f < 12676 → s.env = List.replicate f .ok ++ (.err e :: rest) →
    ∃ u v t, exec .update s = .next u ∧ run f u = .next v ∧ run (f + 1) u = .next t ∧
      nextWrite v = some (updateEvent s.gs f) ∧
      t.tr = s.tr ++ eventsOk ((List.range f).map (updateEvent s.gs)) ++
        [{ pin := (updateEvent s.gs f).1, level := (updateEvent s.gs f).2, result := .err e }] ∧
      t.ph = .failed ∧ t.rsp = .pinErr e ∧ t.responses = s.responses ++ [.pinErr e] ∧
      pinLevel t.pin (updateEvent s.gs f).1 = .x ∧ t.gs = s.gs ∧
      t.ch = v.ch ∧ t.bit = v.bit ∧ t.sub = v.sub ∧ t.pulse = v.pulse ∧
      (1 ≤ f → f ≤ 12672 → ∀ ev ∈ eventsOk ((List.range (f + 1)).map (updateEvent s.gs)),
        ¬ (ev.pin = .blank ∧ ev.level = .high) ∧ ev.pin ≠ .latch)

/-- R140, R146, R176: from the acceptance of `UPDATE`, whatever the pin environment answers, at most 12676 steps
end the operation, and the state they leave is that of `UPDATE` as one operation (the loops of R140 with its
`?`) but for the position registers. -/
def Obligations.SequencerRefinesTheUpdate : Prop :=
  ∀ s : State, s.ph = .idle ∨ s.ph = .failed → s.rst = [] →
    ∃ n u t, exec .update s = .next u ∧ 1 ≤ n ∧ n ≤ 12676 ∧ run n u = .next t ∧ busy t = false ∧
      sameButPosition (operationUpdate s) t
end

