-- ==== Sys2Proof/Laws/State.lean ====
section
/-! SUPPORT. One lemma per field per named update of State, each true by unfolding once. -/

namespace Sys2Proof.Machine

@[simp] theorem pinWrite_gs (p : Pin) (l : Level) (s : State) : (pinWrite p l s).gs = s.gs := rfl
@[simp] theorem pinWrite_pin (p : Pin) (l : Level) (s : State) : (pinWrite p l s).pin = setPin s.pin p (lineAfter l (pinAnswer p l s)) := rfl
@[simp] theorem pinWrite_ph (p : Pin) (l : Level) (s : State) : (pinWrite p l s).ph = s.ph := rfl
@[simp] theorem pinWrite_ch (p : Pin) (l : Level) (s : State) : (pinWrite p l s).ch = s.ch := rfl
@[simp] theorem pinWrite_bit (p : Pin) (l : Level) (s : State) : (pinWrite p l s).bit = s.bit := rfl
@[simp] theorem pinWrite_sub (p : Pin) (l : Level) (s : State) : (pinWrite p l s).sub = s.sub := rfl
@[simp] theorem pinWrite_pulse (p : Pin) (l : Level) (s : State) : (pinWrite p l s).pulse = s.pulse := rfl
@[simp] theorem pinWrite_rsp (p : Pin) (l : Level) (s : State) : (pinWrite p l s).rsp = s.rsp := rfl
@[simp] theorem pinWrite_tr (p : Pin) (l : Level) (s : State) : (pinWrite p l s).tr = s.tr ++ [{ pin := p, level := l, result := pinAnswer p l s }] := rfl
@[simp] theorem pinWrite_cmd (p : Pin) (l : Level) (s : State) : (pinWrite p l s).cmd = s.cmd := rfl
@[simp] theorem pinWrite_rst (p : Pin) (l : Level) (s : State) : (pinWrite p l s).rst = s.rst := rfl
@[simp] theorem pinWrite_env (p : Pin) (l : Level) (s : State) : (pinWrite p l s).env = s.env.tail := rfl
@[simp] theorem pinWrite_direct (p : Pin) (l : Level) (s : State) : (pinWrite p l s).direct = s.direct := rfl
@[simp] theorem pinWrite_responses (p : Pin) (l : Level) (s : State) : (pinWrite p l s).responses = s.responses := rfl
@[simp] theorem pinWrite_ret (p : Pin) (l : Level) (s : State) : (pinWrite p l s).ret = pinAnswer p l s := rfl
@[simp] theorem pinWrite_draws (p : Pin) (l : Level) (s : State) : (pinWrite p l s).draws = s.draws := rfl

@[simp] theorem respond_gs (r : Response) (s : State) : (respond r s).gs = s.gs := rfl
@[simp] theorem respond_pin (r : Response) (s : State) : (respond r s).pin = s.pin := rfl
@[simp] theorem respond_ph (r : Response) (s : State) : (respond r s).ph = s.ph := rfl
@[simp] theorem respond_ch (r : Response) (s : State) : (respond r s).ch = s.ch := rfl
@[simp] theorem respond_bit (r : Response) (s : State) : (respond r s).bit = s.bit := rfl
@[simp] theorem respond_sub (r : Response) (s : State) : (respond r s).sub = s.sub := rfl
@[simp] theorem respond_pulse (r : Response) (s : State) : (respond r s).pulse = s.pulse := rfl
@[simp] theorem respond_rsp (r : Response) (s : State) : (respond r s).rsp = r := rfl
@[simp] theorem respond_tr (r : Response) (s : State) : (respond r s).tr = s.tr := rfl
@[simp] theorem respond_cmd (r : Response) (s : State) : (respond r s).cmd = s.cmd := rfl
@[simp] theorem respond_rst (r : Response) (s : State) : (respond r s).rst = s.rst := rfl
@[simp] theorem respond_env (r : Response) (s : State) : (respond r s).env = s.env := rfl
@[simp] theorem respond_direct (r : Response) (s : State) : (respond r s).direct = s.direct := rfl
@[simp] theorem respond_responses (r : Response) (s : State) : (respond r s).responses = s.responses ++ [r] := rfl
@[simp] theorem respond_ret (r : Response) (s : State) : (respond r s).ret = s.ret := rfl
@[simp] theorem respond_draws (r : Response) (s : State) : (respond r s).draws = s.draws := rfl

@[simp] theorem forgetBuffer_gs (s : State) : (forgetBuffer s).gs = Config.freeBuffer s.draws := rfl
@[simp] theorem forgetBuffer_pin (s : State) : (forgetBuffer s).pin = s.pin := rfl
@[simp] theorem forgetBuffer_ph (s : State) : (forgetBuffer s).ph = s.ph := rfl
@[simp] theorem forgetBuffer_ch (s : State) : (forgetBuffer s).ch = s.ch := rfl
@[simp] theorem forgetBuffer_bit (s : State) : (forgetBuffer s).bit = s.bit := rfl
@[simp] theorem forgetBuffer_sub (s : State) : (forgetBuffer s).sub = s.sub := rfl
@[simp] theorem forgetBuffer_pulse (s : State) : (forgetBuffer s).pulse = s.pulse := rfl
@[simp] theorem forgetBuffer_rsp (s : State) : (forgetBuffer s).rsp = s.rsp := rfl
@[simp] theorem forgetBuffer_tr (s : State) : (forgetBuffer s).tr = s.tr := rfl
@[simp] theorem forgetBuffer_cmd (s : State) : (forgetBuffer s).cmd = s.cmd := rfl
@[simp] theorem forgetBuffer_rst (s : State) : (forgetBuffer s).rst = s.rst := rfl
@[simp] theorem forgetBuffer_env (s : State) : (forgetBuffer s).env = s.env := rfl
@[simp] theorem forgetBuffer_direct (s : State) : (forgetBuffer s).direct = s.direct := rfl
@[simp] theorem forgetBuffer_responses (s : State) : (forgetBuffer s).responses = s.responses := rfl
@[simp] theorem forgetBuffer_ret (s : State) : (forgetBuffer s).ret = s.ret := rfl
@[simp] theorem forgetBuffer_draws (s : State) : (forgetBuffer s).draws = s.draws + 1 := rfl

@[simp] theorem takeSample_gs (s : State) : (takeSample s).gs = s.gs := rfl
@[simp] theorem takeSample_pin (s : State) : (takeSample s).pin = s.pin := rfl
@[simp] theorem takeSample_ph (s : State) : (takeSample s).ph = s.ph := rfl
@[simp] theorem takeSample_ch (s : State) : (takeSample s).ch = s.ch := rfl
@[simp] theorem takeSample_bit (s : State) : (takeSample s).bit = s.bit := rfl
@[simp] theorem takeSample_sub (s : State) : (takeSample s).sub = s.sub := rfl
@[simp] theorem takeSample_pulse (s : State) : (takeSample s).pulse = s.pulse := rfl
@[simp] theorem takeSample_rsp (s : State) : (takeSample s).rsp = s.rsp := rfl
@[simp] theorem takeSample_tr (s : State) : (takeSample s).tr = s.tr := rfl
@[simp] theorem takeSample_cmd (s : State) : (takeSample s).cmd = s.cmd := rfl
@[simp] theorem takeSample_rst (s : State) : (takeSample s).rst = s.rst.tail := rfl
@[simp] theorem takeSample_env (s : State) : (takeSample s).env = s.env := rfl
@[simp] theorem takeSample_direct (s : State) : (takeSample s).direct = s.direct := rfl
@[simp] theorem takeSample_responses (s : State) : (takeSample s).responses = s.responses := rfl
@[simp] theorem takeSample_ret (s : State) : (takeSample s).ret = s.ret := rfl
@[simp] theorem takeSample_draws (s : State) : (takeSample s).draws = s.draws := rfl

@[simp] theorem takeCommand_gs (s : State) : (takeCommand s).gs = s.gs := rfl
@[simp] theorem takeCommand_pin (s : State) : (takeCommand s).pin = s.pin := rfl
@[simp] theorem takeCommand_ph (s : State) : (takeCommand s).ph = s.ph := rfl
@[simp] theorem takeCommand_ch (s : State) : (takeCommand s).ch = s.ch := rfl
@[simp] theorem takeCommand_bit (s : State) : (takeCommand s).bit = s.bit := rfl
@[simp] theorem takeCommand_sub (s : State) : (takeCommand s).sub = s.sub := rfl
@[simp] theorem takeCommand_pulse (s : State) : (takeCommand s).pulse = s.pulse := rfl
@[simp] theorem takeCommand_rsp (s : State) : (takeCommand s).rsp = s.rsp := rfl
@[simp] theorem takeCommand_tr (s : State) : (takeCommand s).tr = s.tr := rfl
@[simp] theorem takeCommand_cmd (s : State) : (takeCommand s).cmd = s.cmd.tail := rfl
@[simp] theorem takeCommand_rst (s : State) : (takeCommand s).rst = s.rst := rfl
@[simp] theorem takeCommand_env (s : State) : (takeCommand s).env = s.env := rfl
@[simp] theorem takeCommand_direct (s : State) : (takeCommand s).direct = s.direct := rfl
@[simp] theorem takeCommand_responses (s : State) : (takeCommand s).responses = s.responses := rfl
@[simp] theorem takeCommand_ret (s : State) : (takeCommand s).ret = s.ret := rfl
@[simp] theorem takeCommand_draws (s : State) : (takeCommand s).draws = s.draws := rfl

@[simp] theorem takeDirect_gs (s : State) : (takeDirect s).gs = s.gs := rfl
@[simp] theorem takeDirect_pin (s : State) : (takeDirect s).pin = s.pin := rfl
@[simp] theorem takeDirect_ph (s : State) : (takeDirect s).ph = s.ph := rfl
@[simp] theorem takeDirect_ch (s : State) : (takeDirect s).ch = s.ch := rfl
@[simp] theorem takeDirect_bit (s : State) : (takeDirect s).bit = s.bit := rfl
@[simp] theorem takeDirect_sub (s : State) : (takeDirect s).sub = s.sub := rfl
@[simp] theorem takeDirect_pulse (s : State) : (takeDirect s).pulse = s.pulse := rfl
@[simp] theorem takeDirect_rsp (s : State) : (takeDirect s).rsp = s.rsp := rfl
@[simp] theorem takeDirect_tr (s : State) : (takeDirect s).tr = s.tr := rfl
@[simp] theorem takeDirect_cmd (s : State) : (takeDirect s).cmd = s.cmd := rfl
@[simp] theorem takeDirect_rst (s : State) : (takeDirect s).rst = s.rst := rfl
@[simp] theorem takeDirect_env (s : State) : (takeDirect s).env = s.env := rfl
@[simp] theorem takeDirect_direct (s : State) : (takeDirect s).direct = s.direct.tail := rfl
@[simp] theorem takeDirect_responses (s : State) : (takeDirect s).responses = s.responses := rfl
@[simp] theorem takeDirect_ret (s : State) : (takeDirect s).ret = s.ret := rfl
@[simp] theorem takeDirect_draws (s : State) : (takeDirect s).draws = s.draws := rfl

@[simp] theorem beginNew_gs (s : State) : (beginNew s).gs = s.gs := rfl
@[simp] theorem beginNew_pin (s : State) : (beginNew s).pin = s.pin := rfl
@[simp] theorem beginNew_ph (s : State) : (beginNew s).ph = .constructing := rfl
@[simp] theorem beginNew_ch (s : State) : (beginNew s).ch = s.ch := rfl
@[simp] theorem beginNew_bit (s : State) : (beginNew s).bit = s.bit := rfl
@[simp] theorem beginNew_sub (s : State) : (beginNew s).sub = 0 := rfl
@[simp] theorem beginNew_pulse (s : State) : (beginNew s).pulse = s.pulse := rfl
@[simp] theorem beginNew_rsp (s : State) : (beginNew s).rsp = s.rsp := rfl
@[simp] theorem beginNew_tr (s : State) : (beginNew s).tr = s.tr := rfl
@[simp] theorem beginNew_cmd (s : State) : (beginNew s).cmd = s.cmd := rfl
@[simp] theorem beginNew_rst (s : State) : (beginNew s).rst = s.rst := rfl
@[simp] theorem beginNew_env (s : State) : (beginNew s).env = s.env := rfl
@[simp] theorem beginNew_direct (s : State) : (beginNew s).direct = s.direct := rfl
@[simp] theorem beginNew_responses (s : State) : (beginNew s).responses = s.responses := rfl
@[simp] theorem beginNew_ret (s : State) : (beginNew s).ret = s.ret := rfl
@[simp] theorem beginNew_draws (s : State) : (beginNew s).draws = s.draws := rfl

@[simp] theorem finishNew_gs (s : State) : (finishNew s).gs = bufFill 0 := rfl
@[simp] theorem finishNew_pin (s : State) : (finishNew s).pin = s.pin := rfl
@[simp] theorem finishNew_ph (s : State) : (finishNew s).ph = .idle := rfl
@[simp] theorem finishNew_ch (s : State) : (finishNew s).ch = s.ch := rfl
@[simp] theorem finishNew_bit (s : State) : (finishNew s).bit = s.bit := rfl
@[simp] theorem finishNew_sub (s : State) : (finishNew s).sub = 0 := rfl
@[simp] theorem finishNew_pulse (s : State) : (finishNew s).pulse = s.pulse := rfl
@[simp] theorem finishNew_rsp (s : State) : (finishNew s).rsp = .ok := rfl
@[simp] theorem finishNew_tr (s : State) : (finishNew s).tr = s.tr := rfl
@[simp] theorem finishNew_cmd (s : State) : (finishNew s).cmd = s.cmd := rfl
@[simp] theorem finishNew_rst (s : State) : (finishNew s).rst = s.rst := rfl
@[simp] theorem finishNew_env (s : State) : (finishNew s).env = s.env := rfl
@[simp] theorem finishNew_direct (s : State) : (finishNew s).direct = s.direct := rfl
@[simp] theorem finishNew_responses (s : State) : (finishNew s).responses = s.responses ++ [.ok] := rfl
@[simp] theorem finishNew_ret (s : State) : (finishNew s).ret = s.ret := rfl
@[simp] theorem finishNew_draws (s : State) : (finishNew s).draws = s.draws := rfl

@[simp] theorem beginUpdate_gs (s : State) : (beginUpdate s).gs = s.gs := rfl
@[simp] theorem beginUpdate_pin (s : State) : (beginUpdate s).pin = s.pin := rfl
@[simp] theorem beginUpdate_ph (s : State) : (beginUpdate s).ph = .blanking := rfl
@[simp] theorem beginUpdate_ch (s : State) : (beginUpdate s).ch = s.ch := rfl
@[simp] theorem beginUpdate_bit (s : State) : (beginUpdate s).bit = s.bit := rfl
@[simp] theorem beginUpdate_sub (s : State) : (beginUpdate s).sub = s.sub := rfl
@[simp] theorem beginUpdate_pulse (s : State) : (beginUpdate s).pulse = s.pulse := rfl
@[simp] theorem beginUpdate_rsp (s : State) : (beginUpdate s).rsp = s.rsp := rfl
@[simp] theorem beginUpdate_tr (s : State) : (beginUpdate s).tr = s.tr := rfl
@[simp] theorem beginUpdate_cmd (s : State) : (beginUpdate s).cmd = s.cmd := rfl
@[simp] theorem beginUpdate_rst (s : State) : (beginUpdate s).rst = s.rst := rfl
@[simp] theorem beginUpdate_env (s : State) : (beginUpdate s).env = s.env := rfl
@[simp] theorem beginUpdate_direct (s : State) : (beginUpdate s).direct = s.direct := rfl
@[simp] theorem beginUpdate_responses (s : State) : (beginUpdate s).responses = s.responses := rfl
@[simp] theorem beginUpdate_ret (s : State) : (beginUpdate s).ret = s.ret := rfl
@[simp] theorem beginUpdate_draws (s : State) : (beginUpdate s).draws = s.draws := rfl

@[simp] theorem finishUpdate_gs (s : State) : (finishUpdate s).gs = s.gs := rfl
@[simp] theorem finishUpdate_pin (s : State) : (finishUpdate s).pin = s.pin := rfl
@[simp] theorem finishUpdate_ph (s : State) : (finishUpdate s).ph = .idle := rfl
@[simp] theorem finishUpdate_ch (s : State) : (finishUpdate s).ch = s.ch := rfl
@[simp] theorem finishUpdate_bit (s : State) : (finishUpdate s).bit = s.bit := rfl
@[simp] theorem finishUpdate_sub (s : State) : (finishUpdate s).sub = 0 := rfl
@[simp] theorem finishUpdate_pulse (s : State) : (finishUpdate s).pulse = s.pulse := rfl
@[simp] theorem finishUpdate_rsp (s : State) : (finishUpdate s).rsp = .ok := rfl
@[simp] theorem finishUpdate_tr (s : State) : (finishUpdate s).tr = s.tr := rfl
@[simp] theorem finishUpdate_cmd (s : State) : (finishUpdate s).cmd = s.cmd := rfl
@[simp] theorem finishUpdate_rst (s : State) : (finishUpdate s).rst = s.rst := rfl
@[simp] theorem finishUpdate_env (s : State) : (finishUpdate s).env = s.env := rfl
@[simp] theorem finishUpdate_direct (s : State) : (finishUpdate s).direct = s.direct := rfl
@[simp] theorem finishUpdate_responses (s : State) : (finishUpdate s).responses = s.responses ++ [.ok] := rfl
@[simp] theorem finishUpdate_ret (s : State) : (finishUpdate s).ret = s.ret := rfl
@[simp] theorem finishUpdate_draws (s : State) : (finishUpdate s).draws = s.draws := rfl

@[simp] theorem beginTransfer_gs (s : State) : (beginTransfer s).gs = s.gs := rfl
@[simp] theorem beginTransfer_pin (s : State) : (beginTransfer s).pin = s.pin := rfl
@[simp] theorem beginTransfer_ph (s : State) : (beginTransfer s).ph = .transferring := rfl
@[simp] theorem beginTransfer_ch (s : State) : (beginTransfer s).ch = 15 := rfl
@[simp] theorem beginTransfer_bit (s : State) : (beginTransfer s).bit = 11 := rfl
@[simp] theorem beginTransfer_sub (s : State) : (beginTransfer s).sub = 0 := rfl
@[simp] theorem beginTransfer_pulse (s : State) : (beginTransfer s).pulse = 0 := rfl
@[simp] theorem beginTransfer_rsp (s : State) : (beginTransfer s).rsp = s.rsp := rfl
@[simp] theorem beginTransfer_tr (s : State) : (beginTransfer s).tr = s.tr := rfl
@[simp] theorem beginTransfer_cmd (s : State) : (beginTransfer s).cmd = s.cmd := rfl
@[simp] theorem beginTransfer_rst (s : State) : (beginTransfer s).rst = s.rst := rfl
@[simp] theorem beginTransfer_env (s : State) : (beginTransfer s).env = s.env := rfl
@[simp] theorem beginTransfer_direct (s : State) : (beginTransfer s).direct = s.direct := rfl
@[simp] theorem beginTransfer_responses (s : State) : (beginTransfer s).responses = s.responses := rfl
@[simp] theorem beginTransfer_ret (s : State) : (beginTransfer s).ret = s.ret := rfl
@[simp] theorem beginTransfer_draws (s : State) : (beginTransfer s).draws = s.draws := rfl

@[simp] theorem endIteration_gs (s : State) : (endIteration s).gs = s.gs := rfl
@[simp] theorem endIteration_pin (s : State) : (endIteration s).pin = s.pin := rfl
@[simp] theorem endIteration_ph (s : State) : (endIteration s).ph = if s.pulse + 1 = 4096 then .committing else s.ph := rfl
@[simp] theorem endIteration_ch (s : State) : (endIteration s).ch = s.ch := rfl
@[simp] theorem endIteration_bit (s : State) : (endIteration s).bit = s.bit := rfl
@[simp] theorem endIteration_sub (s : State) : (endIteration s).sub = 0 := rfl
@[simp] theorem endIteration_pulse (s : State) : (endIteration s).pulse = s.pulse + 1 := rfl
@[simp] theorem endIteration_rsp (s : State) : (endIteration s).rsp = s.rsp := rfl
@[simp] theorem endIteration_tr (s : State) : (endIteration s).tr = s.tr := rfl
@[simp] theorem endIteration_cmd (s : State) : (endIteration s).cmd = s.cmd := rfl
@[simp] theorem endIteration_rst (s : State) : (endIteration s).rst = s.rst := rfl
@[simp] theorem endIteration_env (s : State) : (endIteration s).env = s.env := rfl
@[simp] theorem endIteration_direct (s : State) : (endIteration s).direct = s.direct := rfl
@[simp] theorem endIteration_responses (s : State) : (endIteration s).responses = s.responses := rfl
@[simp] theorem endIteration_ret (s : State) : (endIteration s).ret = s.ret := rfl
@[simp] theorem endIteration_draws (s : State) : (endIteration s).draws = s.draws := rfl

end Sys2Proof.Machine
end

