-- ==== Sys2Proof/Laws/Operands.lean ====
section
/-! SUPPORT. Read after write for the lines and for the channel buffer. -/

namespace Sys2Proof.Machine

@[simp] theorem pinLevel_setPin_same (pins : Pins) (p : Pin) (v : PinLevel) :
    pinLevel (setPin pins p v) p = v := by
  cases p <;> rfl

theorem pinLevel_setPin_ne (pins : Pins) {p q : Pin} (v : PinLevel) (h : q ≠ p) :
    pinLevel (setPin pins p v) q = pinLevel pins q := by
  cases p <;> cases q <;> first | rfl | exact absurd rfl h

@[simp] theorem setPin_setPin (pins : Pins) (p : Pin) (v w : PinLevel) :
    setPin (setPin pins p v) p w = setPin pins p w := by
  cases p <;> rfl

@[simp] theorem committed_low : committed .low = .low := rfl

@[simp] theorem committed_high : committed .high = .high := rfl

@[simp] theorem lineAfter_ok (l : Level) : lineAfter l .ok = committed l := rfl

@[simp] theorem lineAfter_err (l : Level) (e : PinErr) : lineAfter l (.err e) = .x := rfl

@[simp] theorem bufRead_bufWrite_same (gs : Buffer) (i : Fin 16) (v : ChannelValue) :
    bufRead (bufWrite gs i v) i = v := by
  simp [bufRead, bufWrite]

theorem bufRead_bufWrite_ne (gs : Buffer) {i j : Fin 16} (v : ChannelValue) (h : j ≠ i) :
    bufRead (bufWrite gs i v) j = bufRead gs j := by
  have : i.val ≠ j.val := fun e => h (Fin.ext e.symm)
  simp [bufRead, bufWrite, Vector.getElem_set_ne, this]

@[simp] theorem bufRead_bufFill (v : ChannelValue) (i : Fin 16) : bufRead (bufFill v) i = v := by
  simp [bufRead, bufFill]

theorem channelIndex_eq_some {idx : BitVec 8} (h : idx.toNat < 16) :
    channelIndex idx = some ⟨idx.toNat, h⟩ := by
  simp [channelIndex, h]

theorem channelIndex_eq_none {idx : BitVec 8} (h : 16 ≤ idx.toNat) : channelIndex idx = none := by
  simp [channelIndex, h]

theorem cursorChannel_eq_some {ch : BitVec 5} (h : ch.toNat < 16) :
    cursorChannel ch = some ⟨ch.toNat, h⟩ := by
  simp [cursorChannel, h]

theorem cursorChannel_eq_none {ch : BitVec 5} (h : 16 ≤ ch.toNat) : cursorChannel ch = none := by
  simp [cursorChannel, h]

end Sys2Proof.Machine
end

