-- ==== Sys2Proof/Laws/Ops.lean ====
section
/-! SUPPORT. What each shared operation can do, said once: pin writes, exceptional events, and the acceptance of
a command. -/

namespace Sys2Proof.Machine

/-! ### Pin writes -/

theorem pinAnswer_cons {s : State} {r : Answer} {rest : List Answer} (h : s.env = r :: rest)
    (p : Pin) (l : Level) : pinAnswer p l s = r := by
  simp [pinAnswer, h]

theorem pinAnswer_nil {s : State} (h : s.env = []) (p : Pin) (l : Level) :
    pinAnswer p l s = Config.pinAnswer s.tr p l := by
  simp [pinAnswer, h]

/-- The answer depends on the coming answers and the trace only. -/
theorem pinAnswer_congr {s t : State} (he : s.env = t.env) (ht : s.tr = t.tr) (p : Pin) (l : Level) :
    pinAnswer p l s = pinAnswer p l t := by
  simp [pinAnswer, he, ht]

/-- A pin write changes the trace, the lines, the coming answers and the returned answer, nothing else. -/
theorem pinWrite_frame (p : Pin) (l : Level) (s : State) :
    { pinWrite p l s with tr := s.tr, pin := s.pin, env := s.env, ret := s.ret } = s := rfl

/-! ### Exceptional events -/

theorem raiseExn_pinWriteFailed_new {s : State} (h : s.ph = .constructing) (e : PinErr) :
    raiseExn (.pinWriteFailed e) s = respond (.pinErr e) (forgetBuffer { s with ph := .uninit }) := by
  simp [raiseExn, h]

theorem raiseExn_pinWriteFailed_update {s : State} (h : s.ph ≠ .constructing) (e : PinErr) :
    raiseExn (.pinWriteFailed e) s = respond (.pinErr e) { s with ph := .failed } := by
  cases hp : s.ph <;> simp_all [raiseExn]

/-! ### Acceptance of a command -/

theorem onCommand_halted {s : State} (h : s.ph = .halted) (admits : Phase → Bool) (effect : State → State) :
    onCommand admits effect s = .fault .halted := by
  simp [onCommand, h]

theorem onCommand_busy {s : State} (h : busy s = true) (admits : Phase → Bool) (effect : State → State) :
    onCommand admits effect s = .next s := by
  cases hp : s.ph <;> simp_all [onCommand, busy, phaseBusy]

theorem onCommand_admitted {s : State} {admits : Phase → Bool} (hr : cmdReady s = true)
    (ha : admits s.ph = true) (effect : State → State) : onCommand admits effect s = .next (effect s) := by
  cases hp : s.ph <;> simp_all [onCommand, cmdReady, busy, phaseBusy]

theorem onCommand_notAdmitted {s : State} {admits : Phase → Bool} (hr : cmdReady s = true)
    (ha : admits s.ph = false) (effect : State → State) :
    onCommand admits effect s = .next (raiseExn .illegalCommand s) := by
  cases hp : s.ph <;> simp_all [onCommand, cmdReady, busy, phaseBusy]

/-- Everything a controller operation can do. -/
theorem onCommand_cases (admits : Phase → Bool) (effect : State → State) (s : State) :
    (s.ph = .halted ∧ onCommand admits effect s = .fault .halted) ∨
    (busy s = true ∧ onCommand admits effect s = .next s) ∨
    (cmdReady s = true ∧ admits s.ph = true ∧ onCommand admits effect s = .next (effect s)) ∨
    (cmdReady s = true ∧ admits s.ph = false ∧
      onCommand admits effect s = .next (raiseExn .illegalCommand s)) := by
  cases hp : s.ph <;> cases ha : admits s.ph <;>
    simp_all [onCommand, cmdReady, busy, phaseBusy]

/-- `SET_CHANNEL`'s effect, in range and out of range (R130, R192). -/
theorem writeChannel_of_lt {idx : BitVec 8} (h : idx.toNat < 16) (val : ChannelValue) (s : State) :
    writeChannel idx val s = respond .ok { s with gs := bufWrite s.gs ⟨idx.toNat, h⟩ val } := by
  simp [writeChannel, channelIndex_eq_some h]

theorem writeChannel_of_ge {idx : BitVec 8} (h : 16 ≤ idx.toNat) (val : ChannelValue) (s : State) :
    writeChannel idx val s = raiseExn .indexFault s := by
  simp [writeChannel, channelIndex_eq_none h]

end Sys2Proof.Machine
end

