-- ==== Sys2Proof/Laws/PerInstr.lean ====
section
/-! SUPPORT. Decode and encode agree, per instruction. -/

namespace Sys2Proof.Laws.RoundTrip

/-- Decoding the bits of a well-formed instruction gives it back, `SET_VALUE` as the operation it dispatches to. -/
def Statement (i : Instr) : Prop := i.wellFormed = true → decode (encode i) = .ok (onPort i)

/-- The bits of a packed word, field by field (R71). -/
theorem getLsbD_pack (opc : BitVec 4) (idx : BitVec 8) (val : ChannelValue) (k : Nat) :
    (packCommand opc idx val).getLsbD k =
      if k < 16 then val.getLsbD k
      else if k < 24 then idx.getLsbD (k - 16)
      else if k < 28 then false
      else opc.getLsbD (k - 28) := by
  change (opc ++ (0 : BitVec 4) ++ idx ++ val : BitVec (4 + 4 + 8 + 16)).getLsbD k = _
  simp only [BitVec.getLsbD_append]
  have h1 : k - 16 < 8 ↔ k < 16 ∨ k < 24 := by omega
  have h2 : k - 16 - 8 < 4 ↔ k < 24 ∨ k < 28 := by omega
  have h3 : k - 16 - 8 - 4 = k - 28 := by omega
  by_cases a : k < 16 <;> by_cases b : k < 24 <;> by_cases c : k < 28 <;> simp [*]

theorem opcField_pack (opc : BitVec 4) (idx : BitVec 8) (val : ChannelValue) :
    opcField (packCommand opc idx val) = opc := by
  ext i hi
  have h0 : ¬ 28 + i < 16 := by omega
  have h1 : ¬ 28 + i < 24 := by omega
  have h2 : ¬ 28 + i < 28 := by omega
  simp [opcField, getLsbD_pack, hi, h0, h1, h2]

theorem zeroField_pack (opc : BitVec 4) (idx : BitVec 8) (val : ChannelValue) :
    zeroField (packCommand opc idx val) = 0 := by
  ext i hi
  have h0 : ¬ 24 + i < 16 := by omega
  have h1 : ¬ 24 + i < 24 := by omega
  have h2 : 24 + i < 28 := by omega
  simp [zeroField, getLsbD_pack, h0, h1, h2]

theorem idxField_pack (opc : BitVec 4) (idx : BitVec 8) (val : ChannelValue) :
    idxField (packCommand opc idx val) = idx := by
  ext i hi
  have h0 : ¬ 16 + i < 16 := by omega
  have h1 : 16 + i < 24 := by omega
  simp [idxField, getLsbD_pack, hi, h0, h1]

theorem valField_pack (opc : BitVec 4) (idx : BitVec 8) (val : ChannelValue) :
    valField (packCommand opc idx val) = val := by
  ext i hi
  simp [valField, getLsbD_pack, hi]

theorem decodeTransaction_low (p : Pin) : decodeTransaction (packTransaction p .low) = .ok (.setLow p) := by
  cases p <;> rfl

theorem decodeTransaction_high (p : Pin) : decodeTransaction (packTransaction p .high) = .ok (.setHigh p) := by
  cases p <;> rfl

theorem new : Statement .new := fun _ => rfl

theorem setChannel (idx : BitVec 8) (val : ChannelValue) : Statement (.setChannel idx val) := by
  intro _
  simp [decode, encode, decodeCommand, zeroField_pack, opcField_pack, idxField_pack, valField_pack, onPort]

theorem setAll (val : ChannelValue) : Statement (.setAll val) := by
  intro _
  simp [decode, encode, decodeCommand, zeroField_pack, opcField_pack, idxField_pack, valField_pack, onPort]

theorem clear : Statement .clear := fun _ => rfl

theorem update : Statement .update := fun _ => rfl

theorem setLow (p : Pin) : Statement (.setLow p) := fun _ => decodeTransaction_low p

theorem setHigh (p : Pin) : Statement (.setHigh p) := fun _ => decodeTransaction_high p

theorem setValue (p : Pin) (v : Value) : Statement (.setValue p v) := by
  intro h
  have hl : ∃ l, levelOf v = some l := by
    cases v with
    | level l => exact ⟨l, rfl⟩
    | number n =>
      have : n < 2 := by simpa [Instr.wellFormed, Value.convertible] using h
      have : n = 0 ∨ n = 1 := by omega
      rcases this with rfl | rfl <;> exact ⟨_, rfl⟩
  obtain ⟨l, hl⟩ := hl
  cases l <;>
    simp [decode, encode, onPort, hl, decodeTransaction_low, decodeTransaction_high]

theorem pulse (p : Pin) : Statement (.pulse p) := by
  intro _
  simp [decode, encode, onPort, decodeTransactions, decodeTransaction_low, decodeTransaction_high]

end Sys2Proof.Laws.RoundTrip
end

