-- ==== Sys2Proof/Laws/Step.lean ====
section
/-! SUPPORT. What a step can do, said once: the pin operation of a busy phase as one pin write, and the cases of
`step`. Also runs. -/

namespace Sys2Proof.Machine

/-- An operation of one write is that write. -/
theorem exec_of_writeOf {i : Instr} {p : Pin} {l : Level} (h : writeOf i = some (p, l)) (s : State) :
    exec i s = .next (pinWrite p l s) := by
  cases i with
  | setLow q => cases h; rfl
  | setHigh q => cases h; rfl
  | setValue q v =>
    cases hv : levelOf v with
    | none => simp [writeOf, hv] at h
    | some m =>
      simp [writeOf, hv] at h
      obtain ⟨rfl, rfl⟩ := h
      cases m <;> simp [exec, execSetValue, hv, execSetLow, execSetHigh]
  | _ => simp [writeOf] at h

/-- Every operation the sequencer asks for is an operation of one write. -/
theorem writeOf_of_nextPinOp {s : State} {i : Instr} (h : nextPinOp s = some i) :
    ∃ p l, writeOf i = some (p, l) := by
  have level (l : Level) : ∃ m, levelOf (.level l) = some m := ⟨l, rfl⟩
  unfold nextPinOp nextConstructing nextShift nextPad nextCommitting at h
  repeat' split at h
  all_goals first
    | (cases h; exact ⟨_, _, rfl⟩)
    | cases h

theorem busy_of_nextPinOp {s : State} {i : Instr} (h : nextPinOp s = some i) : busy s = true := by
  cases hp : s.ph <;> simp_all [nextPinOp, busy, phaseBusy]

theorem nextWrite_of_nextPinOp {s : State} {i : Instr} (h : nextPinOp s = some i) :
    ∃ p l, writeOf i = some (p, l) ∧ nextWrite s = some (p, l) := by
  obtain ⟨p, l, hw⟩ := writeOf_of_nextPinOp h
  exact ⟨p, l, hw, by simp [nextWrite, h, hw]⟩

theorem nextPinOp_of_nextWrite {s : State} {w : Pin × Level} (h : nextWrite s = some w) :
    ∃ i, nextPinOp s = some i ∧ writeOf i = some w := by
  cases hn : nextPinOp s with
  | none => simp [nextWrite, hn] at h
  | some i => exact ⟨i, rfl, by simpa [nextWrite, hn] using h⟩

/-- The selection when `rst` is not asserted. -/
theorem fetch_of_rstLow {s : State} (h : rstHigh s = false) : fetch s = fetchByPhase s := by
  unfold fetch
  split <;> simp_all [rstHigh]

theorem fetchByPhase_busy {s : State} (h : busy s = true) : fetchByPhase s = fetchBusy s := by
  cases hp : s.ph <;> simp_all [fetchByPhase, busy, phaseBusy]

/-- A step in a busy phase at a position of R177: one pin write, then the position (R160). -/
theorem step_of_nextWrite {s : State} {p : Pin} {l : Level} (hr : rstHigh s = false)
    (h : nextWrite s = some (p, l)) : step s = .next (advance (pinWrite p l (takeSample s))) := by
  obtain ⟨i, hi, hw⟩ := nextPinOp_of_nextWrite h
  have hf : fetch s = .sequencer i := by
    rw [fetch_of_rstLow hr, fetchByPhase_busy (busy_of_nextPinOp hi)]; simp [fetchBusy, hi]
  simp [step, hf, exec_of_writeOf hw, afterPinOp]

/-- Every instruction the capability's decoder gives is one of its own operations. -/
theorem decodeByte_cases {b : PinByte} {i : Instr} (h : decodeByte b = .ok i) :
    ∃ p, i = .setLow p ∨ i = .setHigh p ∨ i = .pulse p := by
  have one {t : PinWord} {j : Instr} (h : decodeTransaction t = .ok j) :
      ∃ p, j = .setLow p ∨ j = .setHigh p := by
    unfold decodeTransaction at h
    split at h
    · cases h
    · rename_i p _
      refine ⟨p, ?_⟩
      split at h <;> cases h <;> simp
  unfold decodeByte at h
  split at h
  · obtain ⟨p, hp | hp⟩ := one h <;> exact ⟨p, by simp [hp]⟩
  · unfold decodeTransactions at h
    repeat' split at h
    all_goals first
      | (cases h; exact ⟨_, .inr (.inr rfl)⟩)
      | cases h

/-- Everything a step that answers a next state has done. -/
theorem step_cases {s t : State} (h : step s = .next t) :
    (∃ f, rstHigh s = true ∧ t = hardwareReset f (takeSample s)) ∨
    (∃ p l, rstHigh s = false ∧ nextWrite s = some (p, l) ∧
      t = advance (pinWrite p l (takeSample s))) ∨
    (∃ w rest i, rstHigh s = false ∧ cmdReady s = true ∧ (s.ph = .uninit → s.direct = []) ∧
      s.cmd = w :: rest ∧ decodeCommand w = .ok i ∧ exec i (takeCommand (takeSample s)) = .next t) ∨
    (∃ w rest e, rstHigh s = false ∧ cmdReady s = true ∧ (s.ph = .uninit → s.direct = []) ∧
      s.cmd = w :: rest ∧ decodeCommand w = .error e ∧
      t = raiseExn .illegalCommand (takeCommand (takeSample s))) ∨
    (∃ b rest i, rstHigh s = false ∧ s.ph = .uninit ∧ s.direct = b :: rest ∧ decodeByte b = .ok i ∧
      exec i (takeDirect (takeSample s)) = .next t) ∨
    (rstHigh s = false ∧ cmdReady s = true ∧ (s.ph = .uninit → s.direct = []) ∧ s.cmd = [] ∧
      t = takeSample s) := by
  cases hr : rstHigh s with
  | true =>
    obtain ⟨f, rest, hs⟩ : ∃ f rest, s.rst = .high f :: rest := by
      unfold rstHigh at hr
      split at hr <;> simp_all
    left
    refine ⟨f, rfl, ?_⟩
    simpa [step, fetch, hs] using h.symm
  | false =>
    right
    have command (hc : cmdReady s = true) (hd : s.ph = .uninit → s.direct = [])
        (hf : fetch s = fetchCommand s) :
        (∃ w rest i, false = false ∧ cmdReady s = true ∧ (s.ph = .uninit → s.direct = []) ∧
          s.cmd = w :: rest ∧ decodeCommand w = .ok i ∧
          exec i (takeCommand (takeSample s)) = .next t) ∨
        (∃ w rest e, false = false ∧ cmdReady s = true ∧ (s.ph = .uninit → s.direct = []) ∧
          s.cmd = w :: rest ∧ decodeCommand w = .error e ∧
          t = raiseExn .illegalCommand (takeCommand (takeSample s))) ∨
        (∃ b rest i, false = false ∧ s.ph = .uninit ∧ s.direct = b :: rest ∧ decodeByte b = .ok i ∧
          exec i (takeDirect (takeSample s)) = .next t) ∨
        (false = false ∧ cmdReady s = true ∧ (s.ph = .uninit → s.direct = []) ∧ s.cmd = [] ∧
          t = takeSample s) := by
      cases hcmd : s.cmd with
      | nil =>
        right; right; right
        exact ⟨rfl, hc, hd, rfl, by simpa [step, hf, fetchCommand, hcmd] using h.symm⟩
      | cons w rest =>
        cases hdec : decodeCommand w with
        | ok i =>
          left
          exact ⟨w, rest, i, rfl, hc, hd, rfl, hdec,
            by simpa [step, hf, fetchCommand, hcmd, hdec] using h⟩
        | error e =>
          right; left
          exact ⟨w, rest, e, rfl, hc, hd, rfl, hdec,
            by simpa [step, hf, fetchCommand, hcmd, hdec] using h.symm⟩
    have hf := fetch_of_rstLow hr
    cases hb : busy s with
    | true =>
      left
      rw [fetchByPhase_busy hb] at hf
      cases hn : nextPinOp s with
      | none => simp [step, hf, fetchBusy, hn] at h
      | some i =>
        obtain ⟨p, l, _, hw⟩ := nextWrite_of_nextPinOp hn
        rw [step_of_nextWrite hr hw] at h
        cases h
        exact ⟨p, l, rfl, hw, rfl⟩
    | false =>
      right
      by_cases hu : s.ph = .uninit
      · have hs : fetch s = fetchUninit s := by simp [hf, fetchByPhase, hu]
        obtain hd | ⟨b, rest, hd⟩ : s.direct = [] ∨ ∃ b rest, s.direct = b :: rest := by
          cases s.direct <;> simp
        · exact command (by simp [cmdReady, hb, hu]) (fun _ => hd) (by simp [hs, fetchUninit, hd])
        · cases hdec : decodeByte b with
          | ok i =>
            right; right; left
            exact ⟨b, rest, i, rfl, hu, hd, hdec, by simpa [step, hs, fetchUninit, hd, hdec] using h⟩
          | error e => simp [step, hs, fetchUninit, hd, hdec] at h
      · have hr' : cmdReady s = true := by
          cases hp : s.ph <;> simp_all [cmdReady, busy, phaseBusy, step, fetchByPhase]
        refine command hr' (fun hp => absurd hp hu) ?_
        rw [hf]
        cases hp : s.ph <;> simp_all [cmdReady, busy, phaseBusy, fetchByPhase]

/-! ### Runs -/

theorem run_zero (s : State) : run 0 s = .next s := rfl

/-- One step and then the rest. -/
def afterStep (n : Nat) : Host.Outcome State Fault Refusal → Host.Outcome State Fault Refusal
  | .next t    => run n t
  | .fault r   => .fault r
  | .refused r => .refused r

theorem run_step (n : Nat) (s : State) : run (n + 1) s = afterStep n (step s) := by
  cases hs : step s <;>
    (simp only [run, Host.Core.run, afterStep, show Sys2Proof.core.step s = step s from rfl, hs]; rfl)

theorem run_succ {s t : State} (h : step s = .next t) (n : Nat) : run (n + 1) s = run n t := by
  rw [run_step, h]; rfl

/-- Runs compose. -/
theorem run_add {s t : State} {n : Nat} (h : run n s = .next t) (m : Nat) : run (n + m) s = run m t := by
  induction n generalizing s with
  | zero => cases h; simp
  | succ n ih =>
    cases hs : step s with
    | next u =>
      rw [run_succ hs] at h
      rw [Nat.succ_add, run_succ hs]
      exact ih h
    | fault r => rw [run_step, hs] at h; cases h
    | refused r => rw [run_step, hs] at h; cases h

end Sys2Proof.Machine
end

