-- ==== Sys2Proof/Laws/Sequencer.lean ====
section
/-! SUPPORT. Lemmas about the parts of a step: hardware reset, the selection of a ready block, what the command
decoder can give, the advance of the position, and the legal positions taken apart. -/

namespace Sys2Proof.Machine

/-! ### Hardware reset -/

theorem rst_of_rstHigh {s : State} (h : rstHigh s = true) : ∃ f rest, s.rst = .high f :: rest := by
  unfold rstHigh at h
  split at h <;> simp_all

theorem step_reset {s : State} {f : InFlight} {rest : List RstSample} (h : s.rst = .high f :: rest) :
    step s = .next (hardwareReset f (takeSample s)) := by
  simp [step, fetch, h]

/-- Outside a busy phase no write is in flight. -/
theorem interruptWrite_of_not_busy {s : State} (h : busy s = false) (f : InFlight) :
    interruptWrite f s = s := by
  have : nextWrite s = none := by
    cases hp : s.ph <;> simp_all [nextWrite, nextPinOp, busy, phaseBusy]
  simp [interruptWrite, this]

/-- After `rst` no line is known (R23, R30). -/
@[simp] theorem hardwareReset_pin (f : InFlight) (s : State) : (hardwareReset f s).pin = Pins.unknown := rfl

@[simp] theorem pinLevel_unknown (p : Pin) : pinLevel Pins.unknown p = .x := by cases p <;> rfl

/-- What `rst` does not touch, whatever became of the write in flight (R220, R221). -/
theorem hardwareReset_frame (f : InFlight) (s : State) :
    (hardwareReset f s).responses = s.responses ∧ (hardwareReset f s).cmd = s.cmd ∧
    (hardwareReset f s).rst = s.rst ∧ (hardwareReset f s).direct = s.direct ∧ (hardwareReset f s).ret = s.ret := by
  unfold hardwareReset interruptWrite
  split <;> exact ⟨rfl, rfl, rfl, rfl, rfl⟩

/-! ### Acceptance -/

/-- The selection of a block that is ready, with nothing at the pin capability. -/
theorem fetch_of_cmdReady {s : State} (hc : cmdReady s = true) (hr : rstHigh s = false)
    (hd : s.ph = .uninit → s.direct = []) : fetch s = fetchCommand s := by
  rw [fetch_of_rstLow hr]
  cases hp : s.ph <;> simp_all [cmdReady, busy, phaseBusy, fetchByPhase, fetchUninit]

theorem phase_of_cmdReady {s : State} (h : cmdReady s = true) :
    s.ph = .uninit ∨ s.ph = .idle ∨ s.ph = .failed := by
  cases hp : s.ph <;> simp_all [cmdReady, busy, phaseBusy]

/-- A command word spells one of the five controller operations or nothing (R72, R75). -/
theorem decodeCommand_cases {w : CommandWord} {i : Instr} (h : decodeCommand w = .ok i) :
    i = .new ∨ i = .clear ∨ i = .update ∨ (∃ v, i = .setAll v) ∨ ∃ idx v, i = .setChannel idx v := by
  unfold decodeCommand withoutOperands at h
  repeat' split at h
  all_goals (cases h) <;> simp

/-- A setter or `UPDATE` in `IDLE` or `FAILED` (R193). -/
theorem onCommand_of_idle_or_failed {s : State} (h : s.ph = .idle ∨ s.ph = .failed)
    (effect : State → State) : onCommand admitsController effect s = .next (effect s) := by
  rcases h with h | h <;> simp [onCommand, h, admitsController]

/-! ### The advance of the position -/

theorem advance_of_ok {s : State} (h : s.ret = .ok) : advance s = advanceOk s := by
  simp [advance, h]

theorem advance_of_err {s : State} {e : PinErr} (h : s.ret = .err e) :
    advance s = raiseExn (.pinWriteFailed e) s := by
  simp [advance, h]

/-- The advance writes no pin and touches no port but the response. -/
theorem advance_frame (s : State) :
    (advance s).tr = s.tr ∧ (advance s).pin = s.pin ∧ (advance s).env = s.env ∧ (advance s).ret = s.ret ∧
    (advance s).cmd = s.cmd ∧ (advance s).rst = s.rst ∧ (advance s).direct = s.direct := by
  unfold advance advanceOk advanceConstructing advanceShift advancePad advanceCommitting raiseExn nextBit
  repeat' split
  all_goals exact ⟨rfl, rfl, rfl, rfl, rfl, rfl, rfl⟩

theorem nextBit_of_zero {s : State} (h : s.bit = 0) : nextBit s = { s with bit := 11, ch := s.ch - 1 } := by
  simp [nextBit, h]

theorem nextBit_of_ne_zero {s : State} (h : s.bit ≠ 0) : nextBit s = { s with bit := s.bit - 1 } := by
  unfold nextBit
  exact if_neg h

theorem cursorChannel_neg_one : cursorChannel (-1) = none := rfl

/-! ### The legal positions (R177, R178) -/

theorem positionOk_constructing {s : State} (hp : s.ph = .constructing) (h : positionOk s = true) :
    s.sub.toNat ≤ 4 := by
  simpa [positionOk, hp] using h

theorem positionOk_shift {s : State} (hp : s.ph = .transferring) (hc : s.ch.toNat < 16)
    (h : positionOk s = true) :
    s.bit.toNat ≤ 11 ∧ s.sub.toNat ≤ 4 ∧
      s.pulse.toNat = 12 * (15 - s.ch.toNat) + (11 - s.bit.toNat) := by
  simpa [positionOk, hp, hc, and_assoc] using h

theorem positionOk_pad {s : State} (hp : s.ph = .transferring) (hc : ¬ s.ch.toNat < 16)
    (h : positionOk s = true) :
    s.ch = -1 ∧ s.bit = 11 ∧ (s.sub = 0 ∨ s.sub = 3 ∨ s.sub = 4) ∧
      192 ≤ s.pulse.toNat ∧ s.pulse.toNat ≤ 4095 := by
  simp only [positionOk, hp] at h
  rw [if_neg hc] at h
  simpa [and_assoc] using h

theorem positionOk_committing {s : State} (hp : s.ph = .committing) (h : positionOk s = true) :
    s.ch = -1 ∧ s.bit = 11 ∧ s.sub.toNat ≤ 2 ∧ s.pulse = 4096 := by
  simpa [positionOk, hp, and_assoc] using h

/-- `SUB` at most 4, case by case. -/
theorem sub_le_four {x : BitVec 3} (h : x.toNat ≤ 4) : x = 0 ∨ x = 1 ∨ x = 2 ∨ x = 3 ∨ x = 4 := by
  revert x; decide

/-- `SUB` at most 2, case by case. -/
theorem sub_le_two {x : BitVec 3} (h : x.toNat ≤ 2) : x = 0 ∨ x = 1 ∨ x = 2 := by
  revert x; decide

end Sys2Proof.Machine
end

