-- ==== Sys2Proof/Tests/Slice0.lean ====
section
/-! SUPPORT. Tests, with expected results from spec/ (the vectors of 95_test_vectors.md, named by their ids, and
the encodings of opcode_table.json), and for every statement with hypotheses a state that meets them. -/

namespace Sys2Proof.Tests

open Sys2Proof Sys2Proof.Machine

/-- A pin error. -/
abbrev e0 : PinErr := 0

/-- The state after reset, in the phase `ph`, with the pin environment's coming answers. -/
def inPhase (ph : Phase) (env : List Answer) : State := { State.reset with ph := ph, env := env }

/-- A state at a position of the transfer or the commit phase. -/
def at4 (ph : Phase) (ch : BitVec 5) (bit : BitVec 4) (sub : BitVec 3) (pulse : BitVec 13) (env : List Answer) :
    State :=
  { State.reset with ph := ph, ch := ch, bit := bit, sub := sub, pulse := pulse, env := env, pin := idleLines }

/-- A state with the word `w` on the command port. -/
def withWord (ph : Phase) (w : CommandWord) : State := { State.reset with ph := ph, cmd := [w] }

/-- The same with `rst` asserted. -/
def withRst (f : InFlight) (s : State) : State := { s with rst := [.high f] }

/-- The next state of an outcome, if there is one. -/
def next? : Host.Outcome State Fault Refusal → Option State
  | .next s    => some s
  | .fault _   => none
  | .refused _ => none

/-! ### WellFormed -/

theorem test_wellFormed_refuses_setValue_two : (Instr.setValue .data (.number 2)).wellFormed = false := by decide

theorem test_wellFormed_admits_setValue_one : (Instr.setValue .data (.number 1)).wellFormed = true := by decide

/-! ### Decoding: words written out bit by bit from the opcode table -/

theorem test_decode_new : decodeCommand 0b00010000000000000000000000000000#32 = .ok .new := by decide

theorem test_decode_setChannel :
    decodeCommand 0b00100000000000110000010101010101#32 = .ok (.setChannel 3 0x555) := by decide

theorem test_decode_setAll : decodeCommand 0b00110000000000000000101010101010#32 = .ok (.setAll 0xAAA) := by decide

theorem test_decode_clear : decodeCommand 0b01000000000000000000000000000000#32 = .ok .clear := by decide

theorem test_decode_update : decodeCommand 0b01010000000000000000000000000000#32 = .ok .update := by decide

theorem test_decode_setLow : decodeTransaction 0b0110#4 = .ok (.setLow .latch) := by decide

theorem test_decode_setHigh : decodeTransaction 0b0101#4 = .ok (.setHigh .blank) := by decide

/-- The row `SET_VALUE` `pppv` has no words of its own (R83): its words are those of the operation it
dispatches to. -/
theorem test_encode_setValue :
    encode (.setValue .clock (.number 1)) = .transaction 0b0011#4 ∧
    encode (.setValue .clock (.level .low)) = .transaction 0b0010#4 := by decide

theorem test_decode_pulse : decodeByte 0b10011000#8 = .ok (.pulse .grayscaleClock) := by decide

theorem test_decode_reserved_opcodes :
    decodeCommand 0x00000000#32 = .error .reservedOpcode ∧ decodeCommand 0x60000000#32 = .error .reservedOpcode ∧
    decodeCommand 0xF0000000#32 = .error .reservedOpcode := by decide

theorem test_decode_illegal_fields :
    decodeCommand 0x21030555#32 = .error .zeroFieldSet ∧ decodeCommand 0x30010AAA#32 = .error .unusedIndexSet ∧
    decodeCommand 0x40000001#32 = .error .unusedValueSet ∧ decodeCommand 0x10010000#32 = .error .unusedIndexSet ∧
    decodeCommand 0x50008000#32 = .error .unusedValueSet := by decide

theorem test_decode_refuses_pin_five : decodeTransaction 0b1010#4 = .error .noSuchPin := by decide

theorem test_decode_refuses_two_pins : decodeByte 0b00110000#8 = .error .notAPulse := by decide

/-! ### The opcode table's rows, placed to run next -/

theorem test_fetch_command_rows :
    fetch (State.reset.withFetchWord 32 0x10000000) = .command .new ∧
    fetch (State.reset.withFetchWord 32 0x20000000) = .command (.setChannel 0 0) ∧
    fetch (State.reset.withFetchWord 32 0x30000000) = .command (.setAll 0) ∧
    fetch (State.reset.withFetchWord 32 0x40000000) = .command .clear ∧
    fetch (State.reset.withFetchWord 32 0x50000000) = .command .update := by decide

theorem test_fetch_pin_rows :
    fetch (State.reset.withFetchWord 8 0b0000) = .direct (.setLow .data) ∧
    fetch (State.reset.withFetchWord 8 0b1001) = .direct (.setHigh .grayscaleClock) ∧
    fetch (State.reset.withFetchWord 8 0b00010000) = .direct (.pulse .data) := by decide

theorem test_decodeTableWord :
    decodeTableWord 32 0x200FFFFF = some (.setChannel 15 0xFFFF) ∧
    decodeTableWord 8 0b00010000 = some (.pulse .data) ∧ decodeTableWord 8 0b0001 = some (.setHigh .data) := by
  decide

/-! ### One step or one operation, from the vectors -/

/-- N1, before its first write: the word is accepted and nothing is written yet (R161). -/
theorem test_N1_acceptance :
    (next? (step (withWord .uninit 0x10000000#32))).map (fun t => (t.ph, t.sub, t.tr, t.cmd)) =
      some (.constructing, 0, [], []) := rfl

/-- N6, the fifth write. -/
theorem test_N6_last_write :
    (next? (step { inPhase .constructing [.err e0] with sub := 4 })).map
        (fun t => (t.ph, t.rsp, t.tr, t.pin.blank)) =
      some (.uninit, .pinErr e0, [{ pin := .blank, level := .high, result := .err e0 }], .x) := rfl

/-- M3: the value is stored whole. -/
theorem test_M3 :
    (next? (step (withWord .idle 0x200FFFFF#32))).map (fun t => (t.gs[15], t.gs[14], t.ph, t.rsp, t.tr)) =
      some (0xFFFF, 0, .idle, .ok, []) := rfl

/-- M18: the phase is checked before the index. -/
theorem test_M18 :
    (next? (step (withWord .uninit 0x20100000#32))).map (fun t => (t.ph, t.rsp)) =
      some (.halted, .faultIllegal) := rfl

/-- M7. -/
theorem test_M7 :
    (next? (step (withWord .idle 0x3000FFFF#32))).map (fun t => (t.gs[0], t.gs[15], t.ph, t.rsp)) =
      some (0xFFFF, 0xFFFF, .idle, .ok) := rfl

/-- M12. -/
theorem test_M12 :
    (next? (step (withWord .idle 0x30010AAA#32))).map (fun t => (t.gs[0], t.ph, t.rsp)) =
      some (0, .halted, .faultIllegal) := rfl

/-- M8, from all `0x0AAA`. -/
theorem test_M8 :
    (next? (step { withWord .idle 0x40000000#32 with gs := bufFill 0xAAA })).map
        (fun t => (t.gs[0], t.gs[15], t.ph, t.rsp)) = some (0, 0, .idle, .ok) := rfl

/-- M14. -/
theorem test_M14 :
    (next? (step { withWord .idle 0x40000001#32 with gs := bufFill 0xAAA })).map
        (fun t => (t.gs[7], t.ph, t.rsp)) = some (0xAAA, .halted, .faultIllegal) := rfl

/-- U3: the blank-low write fails. -/
theorem test_U3 :
    (next? (step (at4 .blanking 0 0 0 0 [.err e0]))).map (fun t => (t.ph, t.rsp, t.pin.blank, t.tr.length)) =
      some (.failed, .pinErr e0, .x, 1) := rfl

/-- U8: the write before event 961 ends shift iteration 191 (R169); the position is that of event 961. -/
theorem test_U8_position :
    (next? (step (at4 .transferring 0 0 4 191 [.ok]))).map (fun t => (t.ph, t.ch, t.bit, t.sub, t.pulse)) =
      some (.transferring, -1, 11, 0, 192) := rfl

/-- K1. -/
theorem test_K1 :
    (next? (exec (.setLow .data) (inPhase .uninit [.ok]))).map (fun t => (t.pin.data, t.ret, t.tr)) =
      some (.low, .ok, [{ pin := .data, level := .low, result := .ok }]) := rfl

/-- K3. -/
theorem test_K3 :
    (next? (exec (.setLow .data) (inPhase .uninit [.err e0]))).map (fun t => (t.pin.data, t.ret, t.tr)) =
      some (.x, .err e0, [{ pin := .data, level := .low, result := .err e0 }]) := rfl

/-- K2. -/
theorem test_K2 :
    (next? (exec (.setHigh .blank) (inPhase .uninit [.ok]))).map (fun t => (t.pin.blank, t.pin.data, t.ret)) =
      some (.high, .x, .ok) := rfl

/-- K9: a write, although the level is the same. -/
theorem test_K9 :
    (next? (exec (.setValue .data (.number 0)) (at4 .uninit 0 0 0 0 [.ok]))).map (fun t => (t.pin.data, t.tr)) =
      some (.low, [{ pin := .data, level := .low, result := .ok }]) := rfl

/-- K10. -/
theorem test_K10 :
    (next? (exec (.setValue .data (.level .high)) (inPhase .uninit [.err e0]))).map
        (fun t => (t.pin.data, t.ret)) = some (.x, .err e0) := rfl

/-- K5: one event, no low write. -/
theorem test_K5 :
    (next? (exec (.pulse .clock) (inPhase .uninit [.err e0]))).map (fun t => (t.pin.clock, t.ret, t.tr)) =
      some (.x, .err e0, [{ pin := .clock, level := .high, result := .err e0 }]) := rfl

/-- K6. -/
theorem test_K6 :
    (next? (exec (.pulse .clock) (inPhase .uninit [.ok, .err e0]))).map (fun t => (t.pin.clock, t.ret, t.tr)) =
      some (.x, .err e0, [{ pin := .clock, level := .high, result := .ok },
                          { pin := .clock, level := .low, result := .err e0 }]) := rfl

/-- R23, R30: after `rst` every line is unknown, whatever it was, and the trace is untouched (R220). -/
theorem test_rst_lines :
    (next? (step (withRst .none (at4 .idle 0 0 0 0 [])))).map (fun t => (t.ph, t.pin, t.tr)) =
      some (.uninit, Pins.unknown, []) := rfl

/-- F4: both ends of the frame, with the high bits of channel 15 dropped. -/
theorem test_F4_frame :
    (List.range 13).map (frameBit (bufWrite (bufWrite (bufFill 0) 15 0xFFFF) 0 0x801)) =
      List.replicate 12 true ++ [false] ∧
    ((List.range 12).map (· + 180)).map (frameBit (bufWrite (bufWrite (bufFill 0) 15 0xFFFF) 0 0x801)) =
      [true, false, false, false, false, false, false, false, false, false, false, true] := by decide

/-- The spot checks of U1. -/
theorem test_U1_events :
    [0, 1, 956, 957, 960, 961, 962, 12670, 12672, 12673, 12674, 12675].map (updateEvent (bufFill 0)) =
      [(.blank, .low), (.data, .low), (.data, .low), (.clock, .high), (.grayscaleClock, .low), (.data, .low),
       (.grayscaleClock, .high), (.data, .low), (.grayscaleClock, .low), (.blank, .high), (.latch, .high),
       (.latch, .low)] := by decide

/-! ### Witnesses: a state and operands that meet the hypotheses, clause by clause -/

theorem witness_HardwareResetReachesUninit :
    (withRst .none State.reset).rst = .high .none :: [] ∧ busy (withRst .none State.reset) = false ∧
    (withRst .recorded (inPhase .blanking [])).rst = .high .recorded :: [] ∧
    busy (withRst .recorded (inPhase .blanking [])) = true := by decide

theorem witness_ResetMayCutAWriteOff :
    (∀ f : InFlight, (withRst f (inPhase .blanking [])).rst = .high f :: []) ∧
    (∀ f : InFlight, busy (withRst f (inPhase .blanking [])) = true) ∧
    (∀ f : InFlight, nextWrite (withRst f (inPhase .blanking [])) = some (.blank, .low)) :=
  ⟨fun _ => rfl, fun _ => rfl, fun _ => rfl⟩

theorem witness_PinWriteRecordsAndCommits :
    (inPhase .uninit [.ok]).env = .ok :: [] ∧ (inPhase .uninit [.err e0]).env = .err e0 :: [] ∧
    (inPhase .uninit []).env = [] ∧ Pin.clock ≠ Pin.data := ⟨rfl, rfl, rfl, by decide⟩

theorem witness_SetValueRefusesOtherValues : 2 ≤ 2 ∧ exec (.setValue .data (.number 2)) State.reset =
    .refused .notConvertible := ⟨by decide, rfl⟩

theorem witness_PulseIsHighThenLow :
    pinAnswer .clock .high (inPhase .uninit [.err e0]) = .err e0 ∧
    pinAnswer .clock .high (inPhase .uninit [.ok, .ok]) = .ok ∧
    (inPhase .uninit [.ok, .ok]).env = .ok :: .ok :: [] ∧
    pinAnswer .clock .high (inPhase .uninit [.ok, .err e0]) = .ok := ⟨rfl, rfl, rfl, rfl⟩

theorem witness_NewIsAccepted :
    (inPhase .uninit []).ph = .uninit ∧ (inPhase .idle []).ph = .idle ∧ (inPhase .failed []).ph = .failed := by
  decide

theorem witness_UpdateIsAccepted : (inPhase .idle []).ph = .idle ∧ (inPhase .failed []).ph = .failed := by decide

theorem witness_SetAllStoresInEveryRegister :
    (inPhase .idle []).ph = .idle ∧ (inPhase .failed []).ph = .failed := witness_UpdateIsAccepted

theorem witness_ClearZeroesEveryRegister :
    (inPhase .idle []).ph = .idle ∧ (inPhase .failed []).ph = .failed := witness_UpdateIsAccepted

theorem witness_SettersComposeAsAssignments :
    (inPhase .failed []).ph = .failed ∧ (0 : BitVec 8).toNat ≤ 15 ∧ (15 : BitVec 8).toNat ≤ 15 := by decide

theorem witness_SetChannelStoresTheWholeValue :
    (inPhase .idle []).ph = .idle ∧ (0 : BitVec 8).toNat ≤ 15 ∧ (15 : BitVec 8).toNat ≤ 15 := by decide

theorem witness_IndexAboveFifteenHalts :
    (inPhase .failed []).ph = .failed ∧ 16 ≤ (16 : BitVec 8).toNat ∧ 16 ≤ (255 : BitVec 8).toNat := by decide

theorem witness_UninitAdmitsOnlyNew :
    (inPhase .uninit []).ph = .uninit ∧ ∃ idx v, Instr.setChannel 16 0 = .setChannel idx v :=
  ⟨rfl, 16, 0, rfl⟩

theorem witness_IllegalWordHalts :
    cmdReady (withWord .uninit 0x60000000#32) = true ∧ rstHigh (withWord .uninit 0x60000000#32) = false ∧
    (withWord .uninit 0x60000000#32).direct = [] ∧
    (withWord .uninit 0x60000000#32).cmd = 0x60000000#32 :: [] ∧
    decodeCommand 0x60000000#32 = .error .reservedOpcode := by decide

theorem witness_FailedAdmitsWhatIdleAdmits :
    (inPhase .failed []).ph = .failed ∧ ∃ idx v, Instr.setChannel 15 1 = .setChannel idx v ∧ idx.toNat ≤ 15 :=
  ⟨rfl, 15, 1, rfl, by decide⟩

theorem witness_BusyBlockTakesNoCommand :
    busy { withWord .blanking 0x10000000#32 with env := [.ok] } = true ∧
    rstHigh { withWord .blanking 0x10000000#32 with env := [.ok] } = false ∧
    ∃ t, step { withWord .blanking 0x10000000#32 with env := [.ok] } = .next t ∧ t.cmd = [0x10000000#32] :=
  ⟨rfl, rfl, _, rfl, rfl⟩

theorem witness_HaltedIsLeftOnlyByReset :
    (inPhase .halted []).ph = .halted ∧ rstHigh (inPhase .halted []) = false ∧
    (withRst .none (inPhase .halted [])).ph = .halted ∧ rstHigh (withRst .none (inPhase .halted [])) = true := by
  decide

theorem witness_ReadyBlockHoldsWithoutACommand :
    (inPhase .uninit []).ph = .uninit ∧ (inPhase .uninit []).direct = [] ∧ (inPhase .failed []).ph = .failed ∧
    rstHigh (inPhase .uninit []) = false ∧ (inPhase .uninit []).cmd = [] := by decide

theorem witness_StepRunsTheAcceptedCommand :
    cmdReady (withWord .idle 0x50000000#32) = true ∧ rstHigh (withWord .idle 0x50000000#32) = false ∧
    (withWord .idle 0x50000000#32).ph ≠ .uninit ∧ (withWord .idle 0x50000000#32).cmd = 0x50000000#32 :: [] ∧
    decodeCommand 0x50000000#32 = .ok .update := by decide

theorem witness_StepRunsTheSequencersPinOperation :
    rstHigh (at4 .transferring 15 11 0 0 []) = false ∧
    nextPinOp (at4 .transferring 15 11 0 0 []) = some (.setValue .data (.level .low)) := by decide

theorem witness_StepRunsADirectPinOperation :
    (placeDirect 0b00110010#8 State.reset).ph = .uninit ∧ rstHigh (placeDirect 0b00110010#8 State.reset) = false ∧
    (placeDirect 0b00110010#8 State.reset).direct = 0b00110010#8 :: [] ∧
    decodeByte 0b00110010#8 = .ok (.pulse .clock) := by decide

theorem witness_ConstructionStepsOnOk :
    ∀ k : Fin 5, ({ inPhase .constructing [.ok] with sub := BitVec.ofNat 3 k.val }).ph = .constructing ∧
      rstHigh { inPhase .constructing [.ok] with sub := BitVec.ofNat 3 k.val } = false ∧
      (∀ p l, (written { inPhase .constructing [.ok] with sub := BitVec.ofNat 3 k.val } p l).ret = .ok) :=
  fun _ => ⟨rfl, rfl, fun _ _ => rfl⟩

theorem witness_FailedConstructionStep :
    (inPhase .constructing [.err e0]).ph = .constructing ∧ rstHigh (inPhase .constructing [.err e0]) = false ∧
    nextWrite (inPhase .constructing [.err e0]) = some (.data, .low) ∧
    (written (inPhase .constructing [.err e0]) .data .low).ret = .err e0 := ⟨rfl, rfl, rfl, rfl⟩

theorem witness_BlankingStepOnOk :
    (inPhase .blanking [.ok]).ph = .blanking ∧ rstHigh (inPhase .blanking [.ok]) = false ∧
    (written (inPhase .blanking [.ok]) .blank .low).ret = .ok := ⟨rfl, rfl, rfl⟩

theorem witness_ShiftIterationStepsOnOk :
    (∀ k : Fin 4, (at4 .transferring 15 11 (BitVec.ofNat 3 k.val) 0 [.ok]).ph = .transferring ∧
      rstHigh (at4 .transferring 15 11 (BitVec.ofNat 3 k.val) 0 [.ok]) = false ∧
      (∀ p l, (written (at4 .transferring 15 11 (BitVec.ofNat 3 k.val) 0 [.ok]) p l).ret = .ok)) ∧
    (15 : BitVec 5).toNat = (15 : Fin 16).val ∧ (11 : BitVec 4).toNat ≤ 11 ∧
    (0 : BitVec 5).toNat = (0 : Fin 16).val ∧ (0 : BitVec 4).toNat ≤ 11 :=
  ⟨fun _ => ⟨rfl, rfl, fun _ _ => rfl⟩, by decide⟩

theorem witness_ShiftIterationEndsOnOk :
    positionOk (at4 .transferring 15 11 4 0 [.ok]) = true ∧ positionOk (at4 .transferring 0 0 4 191 [.ok]) = true ∧
    rstHigh (at4 .transferring 0 0 4 191 [.ok]) = false ∧ (15 : BitVec 5).toNat ≤ 15 ∧
    (written (at4 .transferring 15 11 4 0 [.ok]) .grayscaleClock .low).ret = .ok ∧
    (written (at4 .transferring 0 0 4 191 [.ok]) .grayscaleClock .low).ret = .ok := by decide

theorem witness_PadIterationStepsOnOk :
    (at4 .transferring (-1) 11 0 192 [.ok]).ch = -1 ∧ rstHigh (at4 .transferring (-1) 11 0 192 [.ok]) = false ∧
    positionOk (at4 .transferring (-1) 11 0 192 [.ok]) = true ∧
    (written (at4 .transferring (-1) 11 0 192 [.ok]) .data .low).ret = .ok ∧
    (written (at4 .transferring (-1) 11 3 192 [.ok]) .grayscaleClock .high).ret = .ok := by decide

theorem witness_PadIterationEndsOnOk :
    (at4 .transferring (-1) 11 4 4095 [.ok]).ch = -1 ∧ (at4 .transferring (-1) 11 4 4095 [.ok]).pulse = 4095 ∧
    (at4 .transferring (-1) 11 4 192 [.ok]).pulse ≠ 4095 ∧
    (written (at4 .transferring (-1) 11 4 4095 [.ok]) .grayscaleClock .low).ret = .ok ∧
    (written (at4 .transferring (-1) 11 4 192 [.ok]) .grayscaleClock .low).ret = .ok := by decide

theorem witness_CommitStepsOnOk :
    ∀ k : Fin 3, (at4 .committing (-1) 11 (BitVec.ofNat 3 k.val) 4096 [.ok]).ph = .committing ∧
      rstHigh (at4 .committing (-1) 11 (BitVec.ofNat 3 k.val) 4096 [.ok]) = false ∧
      (∀ p l, (written (at4 .committing (-1) 11 (BitVec.ofNat 3 k.val) 4096 [.ok]) p l).ret = .ok) :=
  fun _ => ⟨rfl, rfl, fun _ _ => rfl⟩

theorem witness_FailedUpdateStep :
    nextWrite (at4 .blanking 0 0 0 0 [.err e0]) = some (.blank, .low) ∧
    nextWrite (at4 .transferring (-1) 11 4 4095 [.err e0]) = some (.grayscaleClock, .low) ∧
    nextWrite (at4 .committing (-1) 11 2 4096 [.err e0]) = some (.latch, .low) ∧
    rstHigh (at4 .committing (-1) 11 2 4096 [.err e0]) = false ∧
    (written (at4 .committing (-1) 11 2 4096 [.err e0]) .latch .low).ret = .err e0 :=
  ⟨rfl, rfl, rfl, rfl, rfl⟩

theorem witness_PinPortShowsTheNextWrite :
    busy State.reset = false ∧ pwValid (inPhase .blanking []) = true ∧ pwValid (inPhase .idle []) = false ∧
    pw (inPhase .constructing []) = some 0b0000#4 ∧ pw (inPhase .blanking []) = some 0b0100#4 ∧
    pw { at4 .transferring 15 11 0 0 [] with gs := bufFill 0x800 } = some 0b0001#4 ∧
    pw (at4 .transferring 0 0 4 191 []) = some 0b1000#4 ∧ pw (at4 .transferring (-1) 11 3 192 []) = some 0b1001#4 ∧
    pw (at4 .committing (-1) 11 2 4096 []) = some 0b0110#4 := by decide

theorem witness_PositionNamesTheEventNumber :
    positionOk (inPhase .blanking []) = true ∧ positionOk (at4 .transferring 15 11 0 0 []) = true ∧
    positionOk (at4 .transferring 0 0 4 191 []) = true ∧ positionOk (at4 .transferring (-1) 11 0 192 []) = true ∧
    positionOk (at4 .transferring (-1) 11 4 4095 []) = true ∧ positionOk (at4 .committing (-1) 11 0 4096 []) = true ∧
    positionOk (at4 .committing (-1) 11 2 4096 []) = true := by decide

theorem witness_ResponsesAreHeldInRsp :
    rstHigh (at4 .committing (-1) 11 2 4096 [.ok]) = false ∧
    ∃ t, step (at4 .committing (-1) 11 2 4096 [.ok]) = .next t ∧ t.responses = [.ok] := ⟨rfl, _, rfl, rfl⟩

theorem witness_EveryStepKeepsTheInvariant :
    inv (at4 .blanking 0 0 0 0 [.ok]) = true ∧ rstHigh (at4 .blanking 0 0 0 0 [.ok]) = false ∧
    ∃ t, step (at4 .blanking 0 0 0 0 [.ok]) = .next t ∧ t.ph = .transferring := ⟨rfl, rfl, _, rfl, rfl⟩

theorem witness_LegalPositionsMeetNoUnreachableOne :
    positionOk (inPhase .halted []) = true ∧ step (inPhase .halted []) = .fault .halted := ⟨rfl, rfl⟩

theorem witness_PhaseTransitionsAreComplete :
    (∃ t, step (withRst .none State.reset) = .next t ∧ rstHigh (withRst .none State.reset) = true) ∧
    (∃ t, step (withWord .failed 0x50000000#32) = .next t ∧ rstHigh (withWord .failed 0x50000000#32) = false ∧
      t.ph = .blanking) ∧
    (∃ t, step (at4 .transferring 15 11 4 0 [.ok]) = .next t ∧ t.ph = .transferring) ∧
    (∃ t, step (withWord .uninit 0x50000000#32) = .next t ∧ t.ph = .halted) ∧
    (∃ t, step (at4 .transferring (-1) 11 4 4095 [.ok]) = .next t ∧ t.ph = .committing) ∧
    (∃ t, step (at4 .committing (-1) 11 2 4096 [.ok]) = .next t ∧ t.ph = .idle) :=
  ⟨⟨_, rfl, rfl⟩, ⟨_, rfl, rfl, rfl⟩, ⟨_, rfl, rfl⟩, ⟨_, rfl, rfl⟩, ⟨_, rfl, rfl⟩, ⟨_, rfl, rfl⟩⟩

theorem witness_OnlyNewAndSettersWriteTheBuffer :
    rstHigh (withWord .idle 0x30000001#32) = false ∧
    ∃ t, step (withWord .idle 0x30000001#32) = .next t ∧ t.gs ≠ (withWord .idle 0x30000001#32).gs :=
  ⟨rfl, _, rfl, by decide⟩

theorem witness_OneEventAStepAndOnlyWhileBusy :
    (busy (at4 .blanking 0 0 0 0 [.ok]) = true ∧ ∃ t, step (at4 .blanking 0 0 0 0 [.ok]) = .next t) ∧
    (busy State.reset = false ∧ State.reset.direct = [] ∧ ∃ t, step State.reset = .next t) :=
  ⟨⟨rfl, _, rfl⟩, rfl, rfl, _, rfl⟩

theorem witness_LinesChangeOnlyByPinWrites :
    ∃ t, step (at4 .blanking 0 0 0 0 [.ok]) = .next t ∧
      pinLevel t.pin .blank ≠ pinLevel (at4 .blanking 0 0 0 0 [.ok]).pin .blank := ⟨_, rfl, by decide⟩

/-- `rst` in `IDLE` with known lines. -/
theorem witness_LinesChangeOnlyByPinWrites_rst :
    ∃ t, step (withRst .none (at4 .idle 0 0 0 0 [])) = .next t ∧
      pinLevel t.pin .blank ≠ pinLevel (withRst .none (at4 .idle 0 0 0 0 [])).pin .blank := ⟨_, rfl, by decide⟩

theorem witness_UnknownUntilAWriteSucceeds :
    ∃ t, step (inPhase .blanking [.ok]) = .next t ∧ pinLevel (inPhase .blanking [.ok]).pin .blank = .x ∧
      pinLevel t.pin .blank ≠ .x := ⟨_, rfl, rfl, by decide⟩

theorem witness_TheBlockNeverReadsTheLines :
    ∃ t, step (at4 .transferring 15 11 0 0 [.ok]) = .next t ∧
      Pins.unknown ≠ (at4 .transferring 15 11 0 0 [.ok]).pin := ⟨_, rfl, by decide⟩

theorem witness_PortsShowThePhaseAndTheResult :
    ({ State.reset with rsp := .pinErr e0 } : State).rsp = .pinErr e0 ∧
    ({ State.reset with rsp := .faultIndex } : State).rsp = .faultIndex ∧
    ({ State.reset with rsp := .faultIllegal } : State).rsp = .faultIllegal ∧ State.reset.rsp = .ok :=
  ⟨rfl, rfl, rfl, rfl⟩

theorem witness_DecodingAnEncodingGivesItBack :
    (Instr.setChannel 255 0xFFFF).wellFormed = true ∧ (Instr.setValue .clock (.number 1)).wellFormed = true := by
  decide

theorem witness_OnlySetLowAndSetHighOnThePinPort :
    nextPinOp (at4 .transferring 0 0 0 180 []) = some (.setValue .data (.level .low)) ∧
    nextPinOp (inPhase .constructing []) = some (.setLow .data) ∧
    pw (at4 .transferring 0 0 1 191 []) = some 0b0011#4 := by decide

/-- F6: bit 12 of `0x1ABC` is in no frame. -/
theorem witness_HighBitsAreIgnored :
    bufFill 0x1ABC ≠ bufFill 0x0ABC ∧
    ∀ i : Fin 16, (bufFill 0x1ABC)[i].extractLsb' 0 12 = (bufFill 0x0ABC)[i].extractLsb' 0 12 := by decide

theorem witness_NewRunsToItsResult : (inPhase .uninit []).ph = .uninit ∧ (inPhase .uninit []).rst = [] := by decide

theorem witness_NewTraceIsTheTable :
    (inPhase .uninit [.ok, .ok, .ok, .ok, .ok]).env = [.ok, .ok, .ok, .ok, .ok] ++ [] ∧
    (inPhase .uninit [.err e0]).env = [.err e0] ++ [] ∧
    (inPhase .uninit [.ok, .err e0]).env = [.ok, .err e0] ++ [] ∧
    (inPhase .uninit [.ok, .ok, .err e0]).env = [.ok, .ok, .err e0] ++ [] ∧
    (inPhase .uninit [.ok, .ok, .ok, .err e0]).env = [.ok, .ok, .ok, .err e0] ++ [] ∧
    (inPhase .uninit [.ok, .ok, .ok, .ok, .err e0]).env = [.ok, .ok, .ok, .ok, .err e0] ++ [] :=
  ⟨rfl, rfl, rfl, rfl, rfl, rfl⟩

theorem witness_UpdateRunsToCompletion :
    (inPhase .idle (List.replicate 12676 .ok)).ph = .idle ∧ (inPhase .idle (List.replicate 12676 .ok)).rst = [] ∧
    (inPhase .idle (List.replicate 12676 .ok)).env = List.replicate 12676 .ok ++ [] :=
  ⟨rfl, rfl, (List.append_nil _).symm⟩

theorem witness_UpdateFailsAtTheFirstError :
    (inPhase .failed (List.replicate 12675 .ok ++ (.err e0 :: []))).ph = .failed ∧
    (inPhase .failed (List.replicate 12675 .ok ++ (.err e0 :: []))).rst = [] ∧ 12675 < 12676 ∧
    (inPhase .failed (List.replicate 12675 .ok ++ (.err e0 :: []))).env =
      List.replicate 12675 .ok ++ (.err e0 :: []) ∧
    (inPhase .idle (.err e0 :: [])).env = List.replicate 0 .ok ++ (.err e0 :: []) ∧
    (inPhase .idle (.ok :: .err e0 :: [])).env = List.replicate 1 .ok ++ (.err e0 :: []) ∧ 1 ≤ 1 ∧ 1 ≤ 12672 ∧
    (inPhase .idle (List.replicate 12672 .ok ++ (.err e0 :: []))).env =
      List.replicate 12672 .ok ++ (.err e0 :: []) ∧ 1 ≤ 12672 ∧ 12672 ≤ 12672 :=
  ⟨rfl, rfl, by decide, rfl, rfl, rfl, by decide, by decide, rfl, by decide, by decide⟩

theorem witness_SequencerRefinesTheUpdate :
    (inPhase .idle []).ph = .idle ∧ (inPhase .failed []).ph = .failed ∧ (inPhase .idle []).rst = [] := by decide

end Sys2Proof.Tests
end

section
/-! PROOFS. The writes of `UPDATE` depend on bits 11 to 0 of every register only (R10, R73). -/

namespace Sys2Proof.Machine

/-- A bit below `GSBITS` is a bit of the twelve that the hypothesis compares. -/
theorem dataBit_eq_of_extractLsb'_eq {gs gs' : Buffer} {c : Fin 16} {b : Nat} (hb : b < Config.GSBITS)
    (h : gs[c].extractLsb' 0 12 = gs'[c].extractLsb' 0 12) : dataBit gs c b = dataBit gs' c b := by
  have hbit : ∀ v : ChannelValue, (v.extractLsb' 0 12).getLsbD b = v.getLsbD b := by
    intro v
    have hb12 : b < 12 := hb
    simp [hb12]
  calc dataBit gs c b
      = (gs[c].extractLsb' 0 12).getLsbD b := (hbit gs[c]).symm
    _ = (gs'[c].extractLsb' 0 12).getLsbD b := by rw [h]
    _ = dataBit gs' c b := hbit gs'[c]

/-- A shift iteration reads the buffer only through its one data bit (R142). -/
theorem shiftIteration_eq_of_dataBit_eq {gs gs' : Buffer} {c : Fin 16} {b : Nat}
    (h : dataBit gs c b = dataBit gs' c b) : shiftIteration gs c b = shiftIteration gs' c b := by
  simp only [shiftIteration, h]

theorem shiftWrites_eq_of_dataBit_eq {gs gs' : Buffer}
    (h : ∀ c b, b < Config.GSBITS → dataBit gs c b = dataBit gs' c b) : shiftWrites gs = shiftWrites gs' := by
  refine List.flatMap_congr fun c _ => List.flatMap_congr fun b hb => ?_
  exact shiftIteration_eq_of_dataBit_eq (h c b (List.mem_range.mp (List.mem_reverse.mp hb)))

/-- The pad and the commit phase do not read the buffer (R143, R145). -/
theorem updateWrites_eq_of_shiftWrites_eq {gs gs' : Buffer} (h : shiftWrites gs = shiftWrites gs') :
    updateWrites gs = updateWrites gs' := by
  simp only [updateWrites, h]

/-- Settles O55: the buffer enters the writes of `UPDATE` only through the data bits 11 to 0. -/
theorem highBitsAreIgnored : Obligations.HighBitsAreIgnored := by
  unfold Obligations.HighBitsAreIgnored
  intro gs gs' hlow
  exact updateWrites_eq_of_shiftWrites_eq
    (shiftWrites_eq_of_dataBit_eq fun c _ hb => dataBit_eq_of_extractLsb'_eq hb (hlow c))

end Sys2Proof.Machine
end

section
/-! PROOFS. What a step without `rst` leaves, case by case, with the accepted command and the operations at the
pin capability taken apart. -/

namespace Sys2Proof.Machine

/-! ### Writes at the pin capability -/

theorem runWrites_cons_of_ok {w : Pin × Level} {s : State} (ws : List (Pin × Level))
    (h : (pinWrite w.1 w.2 s).ret = .ok) : runWrites (w :: ws) s = runWrites ws (pinWrite w.1 w.2 s) := by
  simp only [runWrites, h]

theorem runWrites_cons_of_err {w : Pin × Level} {s : State} {e : PinErr} (ws : List (Pin × Level))
    (h : (pinWrite w.1 w.2 s).ret = .err e) : runWrites (w :: ws) s = (some e, pinWrite w.1 w.2 s) := by
  simp only [runWrites, h]

theorem pulsePin_of_ok {p : Pin} {s : State} (h : (pinWrite p .high s).ret = .ok) :
    pulsePin p s = pinWrite p .low (pinWrite p .high s) := by
  simp only [pulsePin, h]

theorem pulsePin_of_err {p : Pin} {s : State} {e : PinErr} (h : (pinWrite p .high s).ret = .err e) :
    pulsePin p s = pinWrite p .high s := by
  simp only [pulsePin, h]

/-- Writes made one after another change what a single one does, nothing else. -/
theorem runWrites_frame (ws : List (Pin × Level)) (s : State) :
    { (runWrites ws s).2 with tr := s.tr, pin := s.pin, env := s.env, ret := s.ret } = s := by
  induction ws generalizing s with
  | nil => rfl
  | cons w ws ih =>
    cases h : (pinWrite w.1 w.2 s).ret with
    | ok =>
      rw [runWrites_cons_of_ok ws h]
      exact congrArg (fun t : State => { t with tr := s.tr, pin := s.pin, env := s.env, ret := s.ret })
        (ih (pinWrite w.1 w.2 s))
    | err e =>
      rw [runWrites_cons_of_err ws h]
      exact pinWrite_frame w.1 w.2 s

@[simp] theorem runWrites_ph (ws : List (Pin × Level)) (s : State) : (runWrites ws s).2.ph = s.ph :=
  (congrArg State.ph (runWrites_frame ws s) :)

@[simp] theorem runWrites_gs (ws : List (Pin × Level)) (s : State) : (runWrites ws s).2.gs = s.gs :=
  (congrArg State.gs (runWrites_frame ws s) :)

@[simp] theorem runWrites_rsp (ws : List (Pin × Level)) (s : State) : (runWrites ws s).2.rsp = s.rsp :=
  (congrArg State.rsp (runWrites_frame ws s) :)

@[simp] theorem runWrites_responses (ws : List (Pin × Level)) (s : State) :
    (runWrites ws s).2.responses = s.responses :=
  (congrArg State.responses (runWrites_frame ws s) :)

theorem runWrites_singleton (p : Pin) (l : Level) (s : State) :
    (runWrites [(p, l)] s).2 = pinWrite p l s := by
  cases h : (pinWrite p l s).ret with
  | ok => rw [runWrites_cons_of_ok (w := (p, l)) [] h, runWrites]
  | err e => rw [runWrites_cons_of_err (w := (p, l)) [] h]

/-- `PULSE` is two writes with the `?` of R106. -/
theorem runWrites_pulse (p : Pin) (s : State) :
    (runWrites [(p, .high), (p, .low)] s).2 = pulsePin p s := by
  cases h : (pinWrite p .high s).ret with
  | ok => rw [pulsePin_of_ok h, runWrites_cons_of_ok (w := (p, .high)) _ h, runWrites_singleton]
  | err e => rw [pulsePin_of_err h, runWrites_cons_of_err (w := (p, .high)) _ h]

/-- An operation the capability's decoder gives is a list of writes. -/
theorem runWrites_of_decodeByte {b : PinByte} {i : Instr} {s t : State} (hdec : decodeByte b = .ok i)
    (h : exec i s = .next t) : ∃ ws, t = (runWrites ws s).2 := by
  obtain ⟨p, rfl | rfl | rfl⟩ := decodeByte_cases hdec <;> cases h
  · exact ⟨[(p, .low)], (runWrites_singleton p .low s).symm⟩
  · exact ⟨[(p, .high)], (runWrites_singleton p .high s).symm⟩
  · exact ⟨[(p, .high), (p, .low)], (runWrites_pulse p s).symm⟩

/-! ### An accepted command -/

/-- `Accepted s i t`: in a phase that accepts words, the operation `i` at the command port takes `s` to `t`
(R130 to R132, R161, R163, R192, R193). -/
inductive Accepted (s : State) : Instr → State → Prop
  | new : Accepted s .new (beginNew s)
  | update (hp : s.ph = .idle ∨ s.ph = .failed) : Accepted s .update (beginUpdate s)
  | setAll (hp : s.ph = .idle ∨ s.ph = .failed) (v : ChannelValue) : Accepted s (.setAll v) (writeAll v s)
  | clear (hp : s.ph = .idle ∨ s.ph = .failed) : Accepted s .clear (writeAll 0 s)
  | setChannel (hp : s.ph = .idle ∨ s.ph = .failed) (idx : BitVec 8) (v : ChannelValue)
      (hi : idx.toNat < 16) :
      Accepted s (.setChannel idx v) (respond .ok { s with gs := bufWrite s.gs ⟨idx.toNat, hi⟩ v })
  | badIndex (hp : s.ph = .idle ∨ s.ph = .failed) (idx : BitVec 8) (v : ChannelValue)
      (hi : 16 ≤ idx.toNat) : Accepted s (.setChannel idx v) (raiseExn .indexFault s)
  | notAdmitted (hp : s.ph = .uninit) (i : Instr) (hi : i ≠ .new) :
      Accepted s i (raiseExn .illegalCommand s)

/-- In `IDLE` and `FAILED` every operation is admitted (R193). -/
theorem accepted_of_idle_or_failed {s t : State} {w : CommandWord} {i : Instr}
    (hp : s.ph = .idle ∨ s.ph = .failed) (hdec : decodeCommand w = .ok i) (h : exec i s = .next t) :
    Accepted s i t := by
  have effect_eq {f : State → State} (hf : onCommand admitsController f s = .next t) : f s = t := by
    rw [onCommand_of_idle_or_failed hp] at hf
    exact Host.Outcome.next.inj hf
  obtain rfl | rfl | rfl | ⟨v, rfl⟩ | ⟨idx, v, rfl⟩ := decodeCommand_cases hdec
  · have hnew : admitsNew s.ph = true := by rcases hp with hp | hp <;> simp [hp, admitsNew]
    have hc : cmdReady s = true := by rcases hp with hp | hp <;> simp [hp, cmdReady, busy, phaseBusy]
    rw [exec, execNew, onCommand_admitted hc hnew] at h
    cases h
    exact .new
  · rw [← effect_eq h]
    exact .clear hp
  · rw [← effect_eq h]
    exact .update hp
  · rw [← effect_eq h]
    exact .setAll hp v
  · rw [← effect_eq h]
    by_cases hi : idx.toNat < 16
    · rw [writeChannel_of_lt hi]
      exact .setChannel hp idx v hi
    · rw [writeChannel_of_ge (Nat.le_of_not_lt hi)]
      exact .badIndex hp idx v (Nat.le_of_not_lt hi)

/-- `UNINIT` admits `NEW` only (R193). -/
theorem accepted_of_uninit {s t : State} {w : CommandWord} {i : Instr}
    (hp : s.ph = .uninit) (hdec : decodeCommand w = .ok i) (h : exec i s = .next t) : Accepted s i t := by
  have illegal_eq {f : State → State} (hf : onCommand admitsController f s = .next t) :
      raiseExn .illegalCommand s = t := by
    simpa [onCommand, hp, admitsController] using hf
  obtain rfl | rfl | rfl | ⟨v, rfl⟩ | ⟨idx, v, rfl⟩ := decodeCommand_cases hdec
  · have hnew : beginNew s = t := by simpa [exec, execNew, onCommand, hp, admitsNew] using h
    rw [← hnew]
    exact .new
  all_goals
    rw [← illegal_eq h]
    exact .notAdmitted hp _ (by simp)

theorem accepted_of_exec {s t : State} {w : CommandWord} {i : Instr} (hc : cmdReady s = true)
    (hdec : decodeCommand w = .ok i) (h : exec i s = .next t) : Accepted s i t := by
  rcases phase_of_cmdReady hc with hp | hp
  · exact accepted_of_uninit hp hdec h
  · exact accepted_of_idle_or_failed hp hdec h

/-! ### A step without `rst` -/

/-- The state in which an accepted command runs: the sample of `rst` and the word are taken. -/
abbrev commandTaken (s : State) : State := takeCommand (takeSample s)

/-- `QuietStep s t`: what a step from `s` that answers `t` has done when `rst` is not asserted. -/
inductive QuietStep (s : State) : State → Prop
  | write {p : Pin} {l : Level} (hw : nextWrite s = some (p, l)) : QuietStep s (advance (written s p l))
  | command {w : CommandWord} {rest : List CommandWord} {i : Instr} {t : State} (hc : cmdReady s = true)
      (hd : s.ph = .uninit → s.direct = []) (hcmd : s.cmd = w :: rest) (hdec : decodeCommand w = .ok i)
      (ha : Accepted (commandTaken s) i t) : QuietStep s t
  | illegal {w : CommandWord} {rest : List CommandWord} {e : DecodeError} (hc : cmdReady s = true)
      (hd : s.ph = .uninit → s.direct = []) (hcmd : s.cmd = w :: rest) (hdec : decodeCommand w = .error e) :
      QuietStep s (raiseExn .illegalCommand (commandTaken s))
  | direct (hp : s.ph = .uninit) (hd : s.direct ≠ []) (ws : List (Pin × Level)) :
      QuietStep s (runWrites ws (takeDirect (takeSample s))).2
  | hold (hc : cmdReady s = true) (hd : s.ph = .uninit → s.direct = []) (hcmd : s.cmd = []) :
      QuietStep s (takeSample s)

theorem quietStep_of_step {s t : State} (hr : rstHigh s = false) (h : step s = .next t) :
    QuietStep s t := by
  obtain ⟨f, hr', -⟩ | ⟨p, l, -, hw, rfl⟩ | ⟨w, rest, i, -, hc, hd, hcmd, hdec, he⟩ |
    ⟨w, rest, e, -, hc, hd, hcmd, hdec, rfl⟩ | ⟨b, rest, i, -, hp, hd, hdec, he⟩ |
    ⟨-, hc, hd, hcmd, rfl⟩ := step_cases h
  · simp [hr] at hr'
  · exact .write hw
  · exact .command hc hd hcmd hdec (accepted_of_exec hc hdec he)
  · exact .illegal hc hd hcmd hdec
  · obtain ⟨ws, rfl⟩ := runWrites_of_decodeByte hdec he
    exact .direct hp (by simp [hd]) ws
  · exact .hold hc hd hcmd

theorem eq_hardwareReset_of_step {s t : State} (hr : rstHigh s = true) (h : step s = .next t) :
    ∃ f, t = hardwareReset f (takeSample s) := by
  obtain ⟨f, rest, hs⟩ := rst_of_rstHigh hr
  rw [step_reset hs] at h
  exact ⟨f, (Host.Outcome.next.inj h).symm⟩

theorem not_busy_of_cmdReady {s : State} (hc : cmdReady s = true) : busy s = false := by
  rcases phase_of_cmdReady hc with hp | hp | hp <;> simp [busy, hp, phaseBusy]

theorem busy_of_nextWrite {s : State} {w : Pin × Level} (h : nextWrite s = some w) : busy s = true := by
  obtain ⟨i, hi, -⟩ := nextPinOp_of_nextWrite h
  exact busy_of_nextPinOp hi

theorem nextWrite_ne_some_of_idle_or_failed {s : State} (hp : s.ph = .idle ∨ s.ph = .failed)
    (w : Pin × Level) : nextWrite s ≠ some w := by
  rcases hp with hp | hp <;> simp [nextWrite, nextPinOp, hp]

/-- In a busy phase the only step is the sequencer's (R74, R160). -/
theorem QuietStep.eq_advance_of_busy {s t : State} (h : QuietStep s t) (hb : busy s = true) :
    ∃ p l, nextWrite s = some (p, l) ∧ t = advance (written s p l) := by
  cases h with
  | write hw => exact ⟨_, _, hw, rfl⟩
  | command hc | illegal hc | hold hc => simp [not_busy_of_cmdReady hc] at hb
  | direct hp => simp [busy, hp, phaseBusy] at hb

/-- In `HALTED` no step is made (R197). -/
theorem QuietStep.ph_ne_halted {s t : State} (h : QuietStep s t) : s.ph ≠ .halted := by
  intro hp
  cases h with
  | write hw => simpa [busy, hp, phaseBusy] using busy_of_nextWrite hw
  | command hc | illegal hc | hold hc => simp [cmdReady, hp] at hc
  | direct hu => simp [hp] at hu

/-! ### The advance of the position, field by field -/

theorem advanceOk_of_constructing {s : State} (hp : s.ph = .constructing) :
    advanceOk s = advanceConstructing s := by
  simp [advanceOk, hp]

theorem advanceOk_of_blanking {s : State} (hp : s.ph = .blanking) : advanceOk s = beginTransfer s := by
  simp [advanceOk, hp]

theorem advanceOk_of_shift {s : State} {c : Fin 16} (hp : s.ph = .transferring)
    (hc : cursorChannel s.ch = some c) : advanceOk s = advanceShift s := by
  simp [advanceOk, hp, hc]

theorem advanceOk_of_pad {s : State} (hp : s.ph = .transferring) (hc : cursorChannel s.ch = none) :
    advanceOk s = advancePad s := by
  simp [advanceOk, hp, hc]

theorem advanceOk_of_committing {s : State} (hp : s.ph = .committing) :
    advanceOk s = advanceCommitting s := by
  simp [advanceOk, hp]

theorem advanceOk_of_not_busy {s : State} (hb : busy s = false) : advanceOk s = s := by
  cases hp : s.ph <;> simp_all [advanceOk, busy, phaseBusy]

/-- `t` is `s` but for the phase and the position registers. -/
def MovesPositionOnly (s t : State) : Prop :=
  ∃ ph ch bit sub pulse, t = { s with ph := ph, ch := ch, bit := bit, sub := sub, pulse := pulse }

theorem MovesPositionOnly.gs {s t : State} (h : MovesPositionOnly s t) : t.gs = s.gs := by
  obtain ⟨_, _, _, _, _, rfl⟩ := h
  rfl

theorem MovesPositionOnly.rsp {s t : State} (h : MovesPositionOnly s t) : t.rsp = s.rsp := by
  obtain ⟨_, _, _, _, _, rfl⟩ := h
  rfl

theorem MovesPositionOnly.responses {s t : State} (h : MovesPositionOnly s t) :
    t.responses = s.responses := by
  obtain ⟨_, _, _, _, _, rfl⟩ := h
  rfl

theorem advanceShift_moves (s : State) : MovesPositionOnly s (advanceShift s) := by
  unfold advanceShift nextBit
  repeat' split
  all_goals exact ⟨_, _, _, _, _, rfl⟩

theorem advancePad_moves (s : State) : MovesPositionOnly s (advancePad s) := by
  unfold advancePad
  repeat' split
  all_goals exact ⟨_, _, _, _, _, rfl⟩

/-- On `Ok` the advance ends `NEW`, ends `UPDATE`, or moves the position (R162 to R173). -/
theorem advanceOk_cases (s : State) :
    (s.ph = .constructing ∧ advanceOk s = finishNew s) ∨ advanceOk s = finishUpdate s ∨
    MovesPositionOnly s (advanceOk s) := by
  cases hp : s.ph with
  | constructing =>
    rw [advanceOk_of_constructing hp, advanceConstructing]
    split
    · exact .inl ⟨rfl, rfl⟩
    · exact .inr (.inr ⟨_, _, _, _, _, rfl⟩)
  | blanking =>
    rw [advanceOk_of_blanking hp]
    exact .inr (.inr ⟨_, _, _, _, _, rfl⟩)
  | transferring =>
    right; right
    cases hc : cursorChannel s.ch with
    | some c => exact advanceOk_of_shift hp hc ▸ advanceShift_moves s
    | none => exact advanceOk_of_pad hp hc ▸ advancePad_moves s
  | committing =>
    rw [advanceOk_of_committing hp, advanceCommitting]
    split
    · exact .inr (.inl rfl)
    · exact .inr (.inr ⟨_, _, _, _, _, rfl⟩)
  | uninit | idle | failed | halted =>
    rw [advanceOk_of_not_busy (by simp [busy, hp, phaseBusy])]
    exact .inr (.inr ⟨_, _, _, _, _, rfl⟩)

@[simp] theorem advance_ret (s : State) : (advance s).ret = s.ret := by
  obtain ⟨-, -, -, hret, -⟩ := advance_frame s
  exact hret

/-! ### The exceptional events, field by field -/

/-- Outside `NEW` no event touches the buffer (R196, R197). -/
theorem raiseExn_gs {s : State} (h : s.ph ≠ .constructing) (x : Exn) : (raiseExn x s).gs = s.gs := by
  cases x with
  | pinWriteFailed e => rw [raiseExn_pinWriteFailed_update h]; rfl
  | indexFault => rfl
  | illegalCommand => rfl

/-- Every event ends the operation with one response (R190). -/
theorem raiseExn_responds (x : Exn) (s : State) :
    ∃ r, (raiseExn x s).responses = s.responses ++ [r] ∧ (raiseExn x s).rsp = r ∧
      busy (raiseExn x s) = false := by
  cases x with
  | pinWriteFailed e =>
    by_cases hp : s.ph = .constructing
    · rw [raiseExn_pinWriteFailed_new hp]
      exact ⟨_, rfl, rfl, rfl⟩
    · rw [raiseExn_pinWriteFailed_update hp]
      exact ⟨_, rfl, rfl, rfl⟩
  | indexFault => exact ⟨_, rfl, rfl, rfl⟩
  | illegalCommand => exact ⟨_, rfl, rfl, rfl⟩

end Sys2Proof.Machine
end

section
/-! PROOFS. The phase transitions of R25, event by event. -/

namespace Sys2Proof.Machine

/-- A failed write of `NEW` leads to `UNINIT` (R162). -/
theorem advance_ph_of_err_constructing {s : State} (hp : s.ph = .constructing) (h : isErr s.ret = true) :
    (advance s).ph = .uninit := by
  cases hret : s.ret with
  | ok => simp [hret, isErr] at h
  | err e => simp [advance_of_err hret, raiseExn_pinWriteFailed_new hp]

/-- A failed write of `UPDATE` leads to `FAILED` (R174). -/
theorem advance_ph_of_err_update {s : State} (hp : s.ph ≠ .constructing) (h : isErr s.ret = true) :
    (advance s).ph = .failed := by
  cases hret : s.ret with
  | ok => simp [hret, isErr] at h
  | err e => simp [advance_of_err hret, raiseExn_pinWriteFailed_update hp]

theorem advance_of_not_isErr {s : State} (h : isErr s.ret = false) : advance s = advanceOk s := by
  cases hret : s.ret with
  | ok => exact advance_of_ok hret
  | err e => simp [hret, isErr] at h

theorem advanceConstructing_ph (s : State) :
    (advanceConstructing s).ph = if s.sub = 4 then .idle else s.ph := by
  unfold advanceConstructing
  split <;> rfl

theorem advanceCommitting_ph (s : State) :
    (advanceCommitting s).ph = if s.sub = 2 then .idle else s.ph := by
  unfold advanceCommitting
  split <;> rfl

@[simp] theorem nextBit_ph (s : State) : (nextBit s).ph = s.ph := by
  unfold nextBit
  split <;> rfl

/-- A shift iteration ends exactly at `SUB` = 4 (R169). -/
theorem advanceShift_cases (s : State) :
    (s.sub = 4 ∧ ∃ u, u.ph = s.ph ∧ advanceShift s = endIteration u) ∨
    (s.sub ≠ 4 ∧ (advanceShift s).ph = s.ph) := by
  unfold advanceShift
  split
  · exact .inl ⟨‹_›, nextBit s, nextBit_ph s, rfl⟩
  · exact .inr ⟨‹_›, rfl⟩

/-- A pad iteration ends exactly at `SUB` = 4 (R172). -/
theorem advancePad_cases (s : State) :
    (s.sub = 4 ∧ ∃ u, u.ph = s.ph ∧ advancePad s = endIteration u) ∨
    (s.sub ≠ 4 ∧ (advancePad s).ph = s.ph) := by
  unfold advancePad
  split
  · exact .inl ⟨‹_›, s, rfl, rfl⟩
  · refine .inr ⟨‹_›, ?_⟩
    split <;> rfl

theorem advanceOk_transferring_cases {s : State} (hp : s.ph = .transferring) :
    (s.sub = 4 ∧ ∃ u, u.ph = .transferring ∧ advanceOk s = endIteration u) ∨
    (s.sub ≠ 4 ∧ (advanceOk s).ph = .transferring) := by
  cases hc : cursorChannel s.ch with
  | some c => rw [advanceOk_of_shift hp hc, ← hp]; exact advanceShift_cases s
  | none => rw [advanceOk_of_pad hp hc, ← hp]; exact advancePad_cases s

/-- The phase leaves `TRANSFERRING` exactly when an iteration ends and brings `PULSE` to 4096 (R149). -/
theorem advanceOk_ph_transferring {s : State} (hp : s.ph = .transferring) :
    ((advanceOk s).ph = .transferring ∧ ¬ (s.sub = 4 ∧ (advanceOk s).pulse = 4096)) ∨
    ((advanceOk s).ph = .committing ∧ s.sub = 4 ∧ (advanceOk s).pulse = 4096) := by
  obtain ⟨h4, u, hu, hend⟩ | ⟨h4, hph⟩ := advanceOk_transferring_cases hp
  · rw [hend, endIteration_ph, endIteration_pulse]
    split
    · exact .inr ⟨rfl, h4, ‹_›⟩
    · exact .inl ⟨hu, fun h => absurd h.2 ‹_›⟩
  · exact .inl ⟨hph, fun h => h4 h.1⟩

/-! ### The rows of R25's table, by the phase a step starts in -/

theorem phase_after_constructing {s : State} (hp : s.ph = .constructing) :
    (isErr s.ret = false ∧ if s.sub = 4 then (advance s).ph = .idle else (advance s).ph = .constructing) ∨
    (isErr s.ret = true ∧ (advance s).ph = .uninit) := by
  cases he : isErr s.ret with
  | true => exact .inr ⟨rfl, advance_ph_of_err_constructing hp he⟩
  | false =>
    rw [advance_of_not_isErr he, advanceOk_of_constructing hp, advanceConstructing_ph, hp]
    refine .inl ⟨rfl, ?_⟩
    split <;> rfl

theorem phase_after_blanking {s : State} (hp : s.ph = .blanking) :
    if isErr s.ret then (advance s).ph = .failed else (advance s).ph = .transferring := by
  cases he : isErr s.ret with
  | true => exact advance_ph_of_err_update (by simp [hp]) he
  | false =>
    rw [advance_of_not_isErr he, advanceOk_of_blanking hp]
    rfl

theorem phase_after_transferring {s : State} (hp : s.ph = .transferring) :
    (isErr s.ret = true ∧ (advance s).ph = .failed) ∨
    (isErr s.ret = false ∧ (advance s).ph = .transferring ∧ ¬ (s.sub = 4 ∧ (advance s).pulse = 4096)) ∨
    (isErr s.ret = false ∧ (advance s).ph = .committing ∧ s.sub = 4 ∧ (advance s).pulse = 4096) := by
  cases he : isErr s.ret with
  | true => exact .inl ⟨rfl, advance_ph_of_err_update (by simp [hp]) he⟩
  | false =>
    rw [advance_of_not_isErr he]
    obtain h | h := advanceOk_ph_transferring hp
    · exact .inr (.inl ⟨rfl, h⟩)
    · exact .inr (.inr ⟨rfl, h⟩)

theorem phase_after_committing {s : State} (hp : s.ph = .committing) :
    (isErr s.ret = false ∧ if s.sub = 2 then (advance s).ph = .idle else (advance s).ph = .committing) ∨
    (isErr s.ret = true ∧ (advance s).ph = .failed) := by
  cases he : isErr s.ret with
  | true => exact .inr ⟨rfl, advance_ph_of_err_update (by simp [hp]) he⟩
  | false =>
    rw [advance_of_not_isErr he, advanceOk_of_committing hp, advanceCommitting_ph, hp]
    refine .inl ⟨rfl, ?_⟩
    split <;> rfl

theorem Accepted.ph_of_uninit {s t : State} {i : Instr} (h : Accepted s i t) (hp : s.ph = .uninit) :
    t.ph = if i = .new then .constructing else .halted := by
  cases h with
  | new => rfl
  | notAdmitted _ i hi => exact (if_neg hi).symm
  | update hp' | setAll hp' | clear hp' | setChannel hp' | badIndex hp' => simp [hp] at hp'

/-- `UNINIT` in R25's table; the words of log 11 come first and leave the phase. -/
theorem QuietStep.phase_after_uninit {s t : State} (h : QuietStep s t) (hp : s.ph = .uninit) :
    if s.direct ≠ [] then t.ph = .uninit
    else match s.cmd with
      | [] => t.ph = .uninit
      | w :: _ => if decodeCommand w = .ok .new then t.ph = .constructing else t.ph = .halted := by
  cases h with
  | write hw => simpa [busy, hp, phaseBusy] using busy_of_nextWrite hw
  | command _ hd hcmd hdec ha =>
    rw [if_neg (by simp [hd hp]), hcmd]
    simp only [hdec, ha.ph_of_uninit hp, Except.ok.injEq]
    split <;> rfl
  | illegal _ hd hcmd hdec => simp [hd hp, hcmd, hdec, raiseExn]
  | direct _ hd => simp [hd, hp]
  | hold _ hd hcmd => simp [hd hp, hcmd, hp]

/-- The rows of `IDLE` and `FAILED` in R25's table when a word is presented, by what the decoder makes of it. -/
theorem QuietStep.phase_after_word {s t : State} {ph : Phase} {w : CommandWord} {rest : List CommandWord}
    {d : Except DecodeError Instr} (h : QuietStep s t) (hs : s.ph = ph) (hph : ph = .idle ∨ ph = .failed)
    (hw : s.cmd = w :: rest) : decodeCommand w = d →
    match d with
    | .ok .new => t.ph = .constructing
    | .ok .update => t.ph = .blanking
    | .ok (.setChannel idx _) => if idx.toNat ≤ 15 then t.ph = ph else t.ph = .halted
    | .ok (.setAll _) | .ok .clear => t.ph = ph
    | _ => t.ph = .halted := by
  intro hd
  subst hs
  cases h with
  | write hn => exact absurd hn (nextWrite_ne_some_of_idle_or_failed hph _)
  | command _ _ hcmd hdec ha =>
    obtain ⟨rfl, rfl⟩ := List.cons.inj (hcmd.symm.trans hw)
    obtain rfl := hdec.symm.trans hd
    cases ha with
    | new | update | setAll | clear => rfl
    | setChannel _ idx v hi => exact (if_pos (Nat.le_of_lt_succ hi)).mpr rfl
    | badIndex _ idx v hi => exact (if_neg (Nat.not_le_of_lt hi)).mpr rfl
    | notAdmitted hu => simp [show s.ph = .uninit from hu] at hph
  | illegal _ _ hcmd hdec =>
    obtain ⟨rfl, rfl⟩ := List.cons.inj (hcmd.symm.trans hw)
    obtain rfl := hdec.symm.trans hd
    rfl
  | direct hu => simp [hu] at hph
  | hold _ _ hcmd => simp [hcmd] at hw

/-- With no word presented a ready block stays in its phase (R205). -/
theorem QuietStep.phase_without_word {s t : State} (h : QuietStep s t) (hp : s.ph = .idle ∨ s.ph = .failed)
    (hn : s.cmd = []) : t.ph = s.ph := by
  cases h with
  | write hw => exact absurd hw (nextWrite_ne_some_of_idle_or_failed hp _)
  | command _ _ hcmd | illegal _ _ hcmd => simp [hcmd] at hn
  | direct hu => simp [hu] at hp
  | hold => rfl

/-- Settles O39: R25's table, row by row, from what a step can do. -/
theorem phaseTransitionsAreComplete : Obligations.PhaseTransitionsAreComplete := by
  unfold Obligations.PhaseTransitionsAreComplete
  intro s t hstep
  refine ⟨fun hr => ?_, fun hr => ?_⟩
  · obtain ⟨f, rfl⟩ := eq_hardwareReset_of_step hr hstep
    rfl
  have h := quietStep_of_step hr hstep
  have sequencer (hb : busy s = true) : ∃ u, u.ph = s.ph ∧ u.sub = s.sub ∧ t = advance u := by
    obtain ⟨p, l, -, ht⟩ := h.eq_advance_of_busy hb
    exact ⟨written s p l, rfl, rfl, ht⟩
  cases hp : s.ph with
  | constructing =>
    obtain ⟨u, hu, hsub, rfl⟩ := sequencer (by simp [busy, hp, phaseBusy])
    simpa [hsub] using phase_after_constructing (hu.trans hp)
  | blanking =>
    obtain ⟨u, hu, hsub, rfl⟩ := sequencer (by simp [busy, hp, phaseBusy])
    simpa using phase_after_blanking (hu.trans hp)
  | transferring =>
    obtain ⟨u, hu, hsub, rfl⟩ := sequencer (by simp [busy, hp, phaseBusy])
    simpa [hsub] using phase_after_transferring (hu.trans hp)
  | committing =>
    obtain ⟨u, hu, hsub, rfl⟩ := sequencer (by simp [busy, hp, phaseBusy])
    simpa [hsub] using phase_after_committing (hu.trans hp)
  | halted => exact h.ph_ne_halted hp
  | uninit => exact h.phase_after_uninit hp
  | idle | failed =>
    cases hcmd : s.cmd with
    | nil => exact (h.phase_without_word (by simp [hp]) hcmd).trans hp
    | cons w rest => exact h.phase_after_word hp (by simp) hcmd rfl

end Sys2Proof.Machine
end

section
/-! PROOFS. What a step without `rst` may do to the channel registers and to `RSP`. -/

namespace Sys2Proof.Machine

/-! ### The channel registers (R21, R22, R148) -/

/-- No write of `UPDATE`, answered `Ok` or not, touches the buffer. -/
theorem advance_gs_of_ne_constructing {s : State} (hp : s.ph ≠ .constructing) :
    (advance s).gs = s.gs := by
  cases hret : s.ret with
  | err e => rw [advance_of_err hret, raiseExn_gs hp]
  | ok =>
    rw [advance_of_ok hret]
    obtain ⟨hc, -⟩ | hend | hmove := advanceOk_cases s
    · exact absurd hc hp
    · rw [hend, finishUpdate_gs]
    · exact hmove.gs

/-- Among the accepted operations only the setters write the buffer, and only where they are admitted. -/
theorem Accepted.gs_eq_or_setter {s t : State} {i : Instr} (h : Accepted s i t) :
    t.gs = s.gs ∨ ((s.ph = .idle ∨ s.ph = .failed) ∧
      (i = .clear ∨ (∃ v, i = .setAll v) ∨ ∃ idx v, i = .setChannel idx v)) := by
  cases h with
  | new | update | badIndex | notAdmitted => exact .inl rfl
  | setAll hp v => exact .inr ⟨hp, .inr (.inl ⟨v, rfl⟩)⟩
  | clear hp => exact .inr ⟨hp, .inl rfl⟩
  | setChannel hp idx v => exact .inr ⟨hp, .inr (.inr ⟨idx, v, rfl⟩)⟩

/-- Settles O40: every other step leaves the buffer, case by case of what a step can do. -/
theorem onlyNewAndSettersWriteTheBuffer : Obligations.OnlyNewAndSettersWriteTheBuffer := by
  unfold Obligations.OnlyNewAndSettersWriteTheBuffer
  intro s t hr hstep hgs
  cases quietStep_of_step hr hstep with
  | @write p l _ =>
    by_cases hp : s.ph = .constructing
    · exact .inl hp
    · exact absurd (advance_gs_of_ne_constructing (s := written s p l) hp) hgs
  | command _ _ hcmd hdec ha =>
    obtain hsame | ⟨hp, hi⟩ := ha.gs_eq_or_setter
    · exact absurd hsame hgs
    · exact .inr ⟨hp, _, _, _, hcmd, hdec, hi⟩
  | illegal | hold => exact absurd rfl hgs
  | direct _ _ ws => exact absurd (runWrites_gs ws _) hgs

/-! ### The result register (R27, R70) -/

/-- From `s` to `t` either no response was given and `RSP` is left, or exactly one, which `RSP` holds in a block
that is not busy. -/
def HoldsResponses (s t : State) : Prop :=
  (t.responses = s.responses ∧ t.rsp = s.rsp) ∨
  ∃ r, t.responses = s.responses ++ [r] ∧ t.rsp = r ∧ busy t = false

theorem respond_holdsResponses {s u : State} (r : Response) (hs : u.responses = s.responses)
    (hb : busy u = false) : HoldsResponses s (respond r u) :=
  .inr ⟨r, by rw [respond_responses, hs], rfl, hb⟩

theorem raiseExn_holdsResponses (x : Exn) (s : State) : HoldsResponses s (raiseExn x s) :=
  .inr (raiseExn_responds x s)

theorem advance_holdsResponses (s : State) : HoldsResponses s (advance s) := by
  cases hret : s.ret with
  | err e =>
    rw [advance_of_err hret]
    exact raiseExn_holdsResponses _ s
  | ok =>
    rw [advance_of_ok hret]
    obtain ⟨-, hend⟩ | hend | hmove := advanceOk_cases s
    · rw [hend]
      exact respond_holdsResponses .ok rfl rfl
    · rw [hend]
      exact respond_holdsResponses .ok rfl rfl
    · exact .inl ⟨hmove.responses, hmove.rsp⟩

theorem not_busy_of_idle_or_failed {s : State} (hp : s.ph = .idle ∨ s.ph = .failed) : busy s = false := by
  rcases hp with hp | hp <;> simp [busy, hp, phaseBusy]

theorem Accepted.holdsResponses {s t : State} {i : Instr} (h : Accepted s i t) : HoldsResponses s t := by
  cases h with
  | new | update => exact .inl ⟨rfl, rfl⟩
  | setAll hp | clear hp | setChannel hp =>
    exact respond_holdsResponses .ok rfl (not_busy_of_idle_or_failed hp)
  | badIndex | notAdmitted => exact raiseExn_holdsResponses _ s

/-- Settles O45: a response is given where an operation ends, and only there. -/
theorem responsesAreHeldInRsp : Obligations.ResponsesAreHeldInRsp := by
  unfold Obligations.ResponsesAreHeldInRsp
  intro s t hr hstep
  cases quietStep_of_step hr hstep with
  | @write p l _ => exact advance_holdsResponses (written s p l)
  | command _ _ _ _ ha => exact ha.holdsResponses
  | illegal => exact raiseExn_holdsResponses _ (commandTaken s)
  | direct _ _ ws => exact .inl ⟨runWrites_responses ws _, runWrites_rsp ws _⟩
  | hold => exact .inl ⟨rfl, rfl⟩

end Sys2Proof.Machine
end

section
/-! PROOFS. The lines are what the events of the trace have left on them (R23). -/

namespace Sys2Proof.Machine

/-- The lines after one event: its level on `Ok`, `X` on an error (R100). -/
def commitEvent (pins : Pins) (ev : Event) : Pins := setPin pins ev.pin (lineAfter ev.level ev.result)

/-- `t` has the lines of `s` with the events committed that its trace has more. -/
def CommitsItsEvents (s t : State) : Prop :=
  ∃ evs, t.tr = s.tr ++ evs ∧ t.pin = evs.foldl commitEvent s.pin

/-- A line keeps its level or has what the last event on its pin has left. -/
theorem pinLevel_foldl_commitEvent (evs : List Event) (pins : Pins) (p : Pin) :
    pinLevel (evs.foldl commitEvent pins) p = pinLevel pins p ∨
    ∃ ev ∈ evs, ev.pin = p ∧
      pinLevel (evs.foldl commitEvent pins) p = lineAfter ev.level ev.result := by
  induction evs generalizing pins with
  | nil => exact .inl rfl
  | cons ev evs ih =>
    rw [List.foldl_cons]
    obtain hkept | ⟨ev', hmem, hpin, hlevel⟩ := ih (commitEvent pins ev)
    · rw [hkept, commitEvent]
      by_cases hp : p = ev.pin
      · subst hp
        exact .inr ⟨ev, List.mem_cons_self, rfl, pinLevel_setPin_same ..⟩
      · exact .inl (pinLevel_setPin_ne pins _ hp)
    · exact .inr ⟨ev', List.mem_cons_of_mem ev hmem, hpin, hlevel⟩

theorem CommitsItsEvents.of_same {s t : State} (htr : t.tr = s.tr) (hpin : t.pin = s.pin) :
    CommitsItsEvents s t :=
  ⟨[], by simpa using htr, hpin⟩

theorem CommitsItsEvents.trans {s t u : State} (h₁ : CommitsItsEvents s t) (h₂ : CommitsItsEvents t u) :
    CommitsItsEvents s u := by
  obtain ⟨evs₁, htr₁, hpin₁⟩ := h₁
  obtain ⟨evs₂, htr₂, hpin₂⟩ := h₂
  exact ⟨evs₁ ++ evs₂, by rw [htr₂, htr₁, List.append_assoc],
    by rw [hpin₂, hpin₁, List.foldl_append]⟩

theorem pinWrite_commitsItsEvents (p : Pin) (l : Level) (s : State) :
    CommitsItsEvents s (pinWrite p l s) :=
  ⟨[_], rfl, rfl⟩

theorem runWrites_commitsItsEvents (ws : List (Pin × Level)) (s : State) :
    CommitsItsEvents s (runWrites ws s).2 := by
  induction ws generalizing s with
  | nil => exact .of_same rfl rfl
  | cons w ws ih =>
    cases h : (pinWrite w.1 w.2 s).ret with
    | ok =>
      rw [runWrites_cons_of_ok ws h]
      exact (pinWrite_commitsItsEvents w.1 w.2 s).trans (ih _)
    | err e =>
      rw [runWrites_cons_of_err ws h]
      exact pinWrite_commitsItsEvents w.1 w.2 s

theorem advance_commitsItsEvents (s : State) : CommitsItsEvents s (advance s) := by
  obtain ⟨htr, hpin, -⟩ := advance_frame s
  exact .of_same htr hpin

/-- Without `rst` every change of a line is an event of the trace. -/
theorem QuietStep.commitsItsEvents {s t : State} (h : QuietStep s t) : CommitsItsEvents s t := by
  cases h with
  | @write p l _ =>
    exact (pinWrite_commitsItsEvents p l (takeSample s)).trans (advance_commitsItsEvents _)
  | command _ _ _ _ ha => cases ha <;> exact .of_same rfl rfl
  | illegal | hold => exact .of_same rfl rfl
  | direct _ _ ws => exact runWrites_commitsItsEvents ws (takeDirect (takeSample s))

/-- Settles O42: without `rst` by the events committed, and `rst` leaves every line `X`. -/
theorem linesChangeOnlyByPinWrites : Obligations.LinesChangeOnlyByPinWrites := by
  unfold Obligations.LinesChangeOnlyByPinWrites
  intro s t p hstep hchange
  cases hr : rstHigh s with
  | true =>
    obtain ⟨f, rfl⟩ := eq_hardwareReset_of_step hr hstep
    exact .inl ⟨rfl, by rw [hardwareReset_pin, pinLevel_unknown]⟩
  | false =>
    obtain ⟨evs, htr, hpin⟩ := (quietStep_of_step hr hstep).commitsItsEvents
    obtain hkept | ⟨ev, hmem, hev, -⟩ := pinLevel_foldl_commitEvent evs s.pin p
    · exact absurd (hpin ▸ hkept) hchange
    · exact .inr ⟨evs, htr, ev, hmem, hev⟩

/-- Settles O43: the last event on the pin was answered `Ok`, since an error leaves `X`, and so does `rst`. -/
theorem unknownUntilAWriteSucceeds : Obligations.UnknownUntilAWriteSucceeds := by
  unfold Obligations.UnknownUntilAWriteSucceeds
  intro s t p hstep hx hknown
  cases hr : rstHigh s with
  | true =>
    obtain ⟨f, rfl⟩ := eq_hardwareReset_of_step hr hstep
    rw [hardwareReset_pin, pinLevel_unknown] at hknown
    exact absurd rfl hknown
  | false =>
    obtain ⟨evs, htr, hpin⟩ := (quietStep_of_step hr hstep).commitsItsEvents
    rw [hpin] at hknown ⊢
    obtain hkept | ⟨ev, hmem, hev, hlevel⟩ := pinLevel_foldl_commitEvent evs s.pin p
    · exact absurd (hkept.trans hx) hknown
    · refine ⟨evs, htr, ev, hmem, hev, ?_⟩
      cases hres : ev.result with
      | ok => exact ⟨rfl, by rw [hlevel, hres, lineAfter_ok]⟩
      | err e => exact absurd (by rw [hlevel, hres, lineAfter_err]) hknown

end Sys2Proof.Machine
end

section
/-! PROOFS. The block never reads the lines (R23): every operation commutes with a change of their levels. -/

namespace Sys2Proof.Machine

/-- `s` with other levels on the lines. -/
abbrev withPins (pins : Pins) (s : State) : State := { s with pin := pins }

/-- `o` and `o'` are the same outcome but for the levels on the lines. -/
inductive SameButLines : Host.Outcome State Fault Refusal → Host.Outcome State Fault Refusal → Prop
  | next (s : State) (pins : Pins) : SameButLines (.next s) (.next (withPins pins s))
  | fault (f : Fault) : SameButLines (.fault f) (.fault f)
  | refused (r : Refusal) : SameButLines (.refused r) (.refused r)

theorem fetch_withPins (pins : Pins) (s : State) : fetch (withPins pins s) = fetch s := rfl

/-- A write sees the lines only to put its own level on one of them. -/
theorem pinWrite_withPins (pins : Pins) (p : Pin) (l : Level) (s : State) :
    pinWrite p l (withPins pins s) =
      withPins (setPin pins p (lineAfter l (pinAnswer p l s))) (pinWrite p l s) := rfl

theorem raiseExn_withPins (pins : Pins) (x : Exn) (s : State) :
    raiseExn x (withPins pins s) = withPins pins (raiseExn x s) := by
  cases x with
  | pinWriteFailed e =>
    by_cases hp : s.ph = .constructing
    · rw [raiseExn_pinWriteFailed_new hp, raiseExn_pinWriteFailed_new (s := withPins pins s) hp]
      rfl
    · rw [raiseExn_pinWriteFailed_update hp, raiseExn_pinWriteFailed_update (s := withPins pins s) hp]
      rfl
  | indexFault => rfl
  | illegalCommand => rfl

theorem writeChannel_withPins (pins : Pins) (idx : BitVec 8) (val : ChannelValue) (s : State) :
    writeChannel idx val (withPins pins s) = withPins pins (writeChannel idx val s) := by
  unfold writeChannel
  split <;> rfl

theorem advanceOk_withPins (pins : Pins) (s : State) :
    advanceOk (withPins pins s) = withPins pins (advanceOk s) := by
  unfold advanceOk advanceConstructing advanceShift advancePad advanceCommitting nextBit
  dsimp only
  repeat' split
  all_goals rfl

theorem advance_withPins (pins : Pins) (s : State) :
    advance (withPins pins s) = withPins pins (advance s) := by
  cases hret : s.ret with
  | ok =>
    rw [advance_of_ok hret, advance_of_ok (s := withPins pins s) hret, advanceOk_withPins]
  | err e =>
    rw [advance_of_err hret, advance_of_err (s := withPins pins s) hret, raiseExn_withPins]

theorem onCommand_sameButLines (pins : Pins) (admits : Phase → Bool) (effect : State → State)
    (heffect : ∀ s, effect (withPins pins s) = withPins pins (effect s)) (s : State) :
    SameButLines (onCommand admits effect s) (onCommand admits effect (withPins pins s)) := by
  obtain ⟨hp, h⟩ | ⟨hb, h⟩ | ⟨hc, ha, h⟩ | ⟨hc, ha, h⟩ := onCommand_cases admits effect s
  · rw [h, onCommand_halted (s := withPins pins s) hp]
    exact .fault .halted
  · rw [h, onCommand_busy (s := withPins pins s) hb]
    exact .next s pins
  · rw [h, onCommand_admitted (s := withPins pins s) hc ha, heffect]
    exact .next (effect s) pins
  · rw [h, onCommand_notAdmitted (s := withPins pins s) hc ha, raiseExn_withPins]
    exact .next _ pins

theorem pinWrite_sameButLines (pins : Pins) (p : Pin) (l : Level) (s : State) :
    SameButLines (.next (pinWrite p l s)) (.next (pinWrite p l (withPins pins s))) := by
  rw [pinWrite_withPins pins p l s]
  exact .next (pinWrite p l s) _

theorem execSetValue_sameButLines (pins : Pins) (p : Pin) (v : Value) (s : State) :
    SameButLines (execSetValue p v s) (execSetValue p v (withPins pins s)) := by
  unfold execSetValue
  split
  · exact pinWrite_sameButLines pins p .low s
  · exact pinWrite_sameButLines pins p .high s
  · exact .refused .notConvertible

theorem execPulse_sameButLines (pins : Pins) (p : Pin) (s : State) :
    SameButLines (execPulse p s) (execPulse p (withPins pins s)) := by
  unfold execPulse
  cases h : (pinWrite p .high s).ret with
  | ok =>
    rw [pulsePin_of_ok h, pulsePin_of_ok (s := withPins pins s) h]
    exact pinWrite_sameButLines _ p .low (pinWrite p .high s)
  | err e =>
    rw [pulsePin_of_err h, pulsePin_of_err (s := withPins pins s) h]
    exact pinWrite_sameButLines pins p .high s

theorem exec_sameButLines (pins : Pins) (i : Instr) (s : State) :
    SameButLines (exec i s) (exec i (withPins pins s)) := by
  cases i with
  | new => exact onCommand_sameButLines pins admitsNew beginNew (fun _ => rfl) s
  | setChannel idx val =>
    exact onCommand_sameButLines pins admitsController _ (writeChannel_withPins pins idx val) s
  | setAll val => exact onCommand_sameButLines pins admitsController (writeAll val) (fun _ => rfl) s
  | clear => exact onCommand_sameButLines pins admitsController (writeAll 0) (fun _ => rfl) s
  | update => exact onCommand_sameButLines pins admitsController beginUpdate (fun _ => rfl) s
  | setLow p => exact pinWrite_sameButLines pins p .low s
  | setHigh p => exact pinWrite_sameButLines pins p .high s
  | setValue p v => exact execSetValue_sameButLines pins p v s
  | pulse p => exact execPulse_sameButLines pins p s

theorem SameButLines.afterPinOp {o o' : Host.Outcome State Fault Refusal} (h : SameButLines o o') :
    SameButLines (afterPinOp o) (afterPinOp o') := by
  cases h with
  | next s pins =>
    simp only [Machine.afterPinOp, advance_withPins]
    exact .next (advance s) pins
  | fault f => exact .fault f
  | refused r => exact .refused r

/-- After `rst` nothing is left of the lines, whatever became of the write in flight (log 19). -/
theorem hardwareReset_withPins (pins : Pins) (f : InFlight) (s : State) :
    hardwareReset f (withPins pins s) = hardwareReset f s := by
  have hnext : nextWrite (withPins pins s) = nextWrite s := rfl
  unfold hardwareReset interruptWrite
  rw [hnext]
  split <;> rfl

theorem step_sameButLines (pins : Pins) (s : State) :
    SameButLines (step s) (step (withPins pins s)) := by
  unfold step
  rw [fetch_withPins pins s]
  cases fetch s with
  | reset f =>
    have hreset : hardwareReset f (takeSample (withPins pins s)) = hardwareReset f (takeSample s) :=
      hardwareReset_withPins pins f (takeSample s)
    simp only [hreset]
    exact .next (hardwareReset f (takeSample s)) (hardwareReset f (takeSample s)).pin
  | halted => exact .fault .halted
  | unreachable => exact .fault .unreachablePosition
  | sequencer i => exact (exec_sameButLines pins i (takeSample s)).afterPinOp
  | command i => exact exec_sameButLines pins i (commandTaken s)
  | illegal => exact .next (raiseExn .illegalCommand (commandTaken s)) pins
  | direct i => exact exec_sameButLines pins i (takeDirect (takeSample s))
  | notATransaction => exact .refused .notATransaction
  | hold => exact .next (takeSample s) pins

/-- Settles O44: the step commutes with a change of the lines' levels. -/
theorem theBlockNeverReadsTheLines : Obligations.TheBlockNeverReadsTheLines := by
  unfold Obligations.TheBlockNeverReadsTheLines
  intro s pins t hstep
  have h := step_sameButLines pins s
  rw [hstep] at h
  generalize step (withPins pins s) = o at h ⊢
  cases h with
  | next _ pins' => exact ⟨withPins pins' t, rfl, rfl⟩

end Sys2Proof.Machine
end

section
/-! PROOFS. The state after reset, and the codes on the ports. -/

namespace Sys2Proof.Machine

/-- Settles O1: by the values of `State.reset` (R30), line by line. -/
theorem resetIsUninitWithLinesUnknown : Obligations.ResetIsUninitWithLinesUnknown := by
  unfold Obligations.ResetIsUninitWithLinesUnknown
  exact ⟨rfl, fun p => pinLevel_unknown p, rfl, rfl, rfl, rfl⟩

/-- Settles O36: in `UNINIT` neither the position nor the lines are constrained. -/
theorem resetMeetsTheInvariant : Obligations.ResetMeetsTheInvariant := by
  unfold Obligations.ResetMeetsTheInvariant
  have hposition : positionOk State.reset = true := rfl
  have hlines : linesOk State.reset = true := rfl
  rw [inv, hposition, hlines]
  rfl

/-- `BUSY` by phase (R24). -/
theorem busy_iff (s : State) : busy s = true ↔
    s.ph = .constructing ∨ s.ph = .blanking ∨ s.ph = .transferring ∨ s.ph = .committing := by
  cases hp : s.ph <;> simp [busy, hp, phaseBusy]

theorem rspStatus_of_rsp {s : State} {r : Response} (h : s.rsp = r) : rspStatus s = statusCode r := by
  rw [rspStatus, h]

theorem rspErr_of_pinErr {s : State} {e : PinErr} (h : s.rsp = .pinErr e) : rspErr s = some e := by
  simp [rspErr, h]

/-- Settles O47: the codes are those of R24 and R78, and `rsp_err` is the error `RSP` holds. -/
theorem portsShowThePhaseAndTheResult : Obligations.PortsShowThePhaseAndTheResult := by
  unfold Obligations.PortsShowThePhaseAndTheResult
  refine ⟨busy_iff, rfl, rfl, rfl, rfl, rfl, rfl, rfl, rfl, ?_, ?_, ?_, ?_⟩
  · exact fun _ h => rspStatus_of_rsp h
  · exact fun _ _ h => ⟨rspStatus_of_rsp h, rspErr_of_pinErr h⟩
  · exact fun _ h => rspStatus_of_rsp h
  · exact fun _ h => rspStatus_of_rsp h

end Sys2Proof.Machine
end

section
/-! PROOFS. The invariant (R62, R142 to R145, R152, R177, R178): what it says phase by phase, and that every step
keeps it. -/

namespace Sys2Proof.Machine

/-! ### The invariant, phase by phase -/

/-- In these phases a failure, a reset or the host's own writes may have left anything on the lines. -/
theorem inv_of_unconstrained {s : State}
    (hp : s.ph = .uninit ∨ s.ph = .blanking ∨ s.ph = .failed ∨ s.ph = .halted) : inv s = true := by
  rcases hp with hp | hp | hp | hp <;> simp [inv, positionOk, linesOk, hp]

theorem inv_constructing_iff {s : State} (hp : s.ph = .constructing) :
    inv s = true ↔ s.sub.toNat ≤ 4 ∧
      (s.sub.toNat < 1 ∨ s.pin.data = .low) ∧ (s.sub.toNat < 2 ∨ s.pin.clock = .low) ∧
      (s.sub.toNat < 3 ∨ s.pin.latch = .low) ∧ (s.sub.toNat < 4 ∨ s.pin.grayscaleClock = .low) := by
  simp [inv, positionOk, linesOk, hp, and_assoc]

theorem inv_idle_iff {s : State} (hp : s.ph = .idle) : inv s = true ↔ s.pin = idleLines := by
  simp [inv, positionOk, linesOk, hp]

theorem inv_shift_iff {s : State} (hp : s.ph = .transferring) (hc : s.ch.toNat < 16) :
    inv s = true ↔
      (s.bit.toNat ≤ 11 ∧ s.sub.toNat ≤ 4 ∧
        s.pulse.toNat = 12 * (15 - s.ch.toNat) + (11 - s.bit.toNat)) ∧
      s.pin.blank = .low ∧
      (s.sub = 0 ∨ s.pin.data = committed (lvl (dataBit s.gs ⟨s.ch.toNat, hc⟩ s.bit.toNat))) ∧
      (if s.sub = 2 then s.pin.clock = .high
        else s.pin.clock = .low ∨ (s.sub.toNat ≤ 1 ∧ s.pulse = 0)) ∧
      (if s.sub = 4 then s.pin.grayscaleClock = .high
        else s.pin.grayscaleClock = .low ∨ s.pulse = 0) := by
  simp only [inv, positionOk, linesOk, shiftLinesOk, hp, cursorChannel_eq_some hc, if_pos hc]
  split <;> split <;> simp [and_assoc]

theorem inv_pad_iff {s : State} (hp : s.ph = .transferring) (hc : ¬ s.ch.toNat < 16) :
    inv s = true ↔
      (s.ch = -1 ∧ s.bit = 11 ∧ (s.sub = 0 ∨ s.sub = 3 ∨ s.sub = 4) ∧
        192 ≤ s.pulse.toNat ∧ s.pulse.toNat ≤ 4095) ∧
      s.pin.blank = .low ∧ s.pin.clock = .low ∧ (s.sub = 0 ∨ s.pin.data = .low) ∧
      (if s.sub = 4 then s.pin.grayscaleClock = .high else s.pin.grayscaleClock = .low) := by
  simp only [inv, positionOk, linesOk, padLinesOk, hp, cursorChannel_eq_none (Nat.le_of_not_lt hc), if_neg hc]
  split <;> simp [and_assoc]

theorem inv_committing_iff {s : State} (hp : s.ph = .committing) :
    inv s = true ↔
      (s.ch = -1 ∧ s.bit = 11 ∧ s.sub.toNat ≤ 2 ∧ s.pulse = 4096) ∧
      s.pin.data = .low ∧ s.pin.clock = .low ∧ s.pin.grayscaleClock = .low ∧
      (if s.sub = 0 then s.pin.blank = .low else s.pin.blank = .high) ∧
      (s.sub = 2 → s.pin.latch = .high) := by
  simp only [inv, positionOk, linesOk, hp]
  split <;> simp [and_assoc, imp_iff_not_or]

/-- Where an iteration begins, blank and both clocks are low, whether it shifts or pads (R142, R143). -/
theorem linesOk_of_iteration_start {s : State} (hp : s.ph = .transferring) (hsub : s.sub = 0)
    (hblank : s.pin.blank = .low) (hclock : s.pin.clock = .low) (hgsclk : s.pin.grayscaleClock = .low) :
    linesOk s = true := by
  cases hc : cursorChannel s.ch <;>
    simp [linesOk, shiftLinesOk, padLinesOk, hp, hc, hsub, hblank, hclock, hgsclk]

/-! ### The writes a position can ask for (R177) -/

theorem nextWrite_constructing_cases {s : State} {p : Pin} {l : Level} (hp : s.ph = .constructing)
    (h : nextWrite s = some (p, l)) :
    (s.sub = 0 ∧ p = .data ∧ l = .low) ∨ (s.sub = 1 ∧ p = .clock ∧ l = .low) ∨
    (s.sub = 2 ∧ p = .latch ∧ l = .low) ∨ (s.sub = 3 ∧ p = .grayscaleClock ∧ l = .low) ∨
    (s.sub = 4 ∧ p = .blank ∧ l = .high) := by
  simp only [nextWrite, nextPinOp, hp, nextConstructing] at h
  split at h <;> cases h <;> simp [← BitVec.toNat_inj, *]

theorem nextWrite_blanking {s : State} (hp : s.ph = .blanking) : nextWrite s = some (.blank, .low) := by
  simp [nextWrite, nextPinOp, hp, writeOf]

theorem nextWrite_shift_cases {s : State} {p : Pin} {l : Level} (hp : s.ph = .transferring)
    (hc : s.ch.toNat < 16) (h : nextWrite s = some (p, l)) :
    (s.sub = 0 ∧ p = .data ∧ l = lvl (dataBit s.gs ⟨s.ch.toNat, hc⟩ s.bit.toNat)) ∨
    (s.sub = 1 ∧ p = .clock ∧ l = .high) ∨ (s.sub = 2 ∧ p = .clock ∧ l = .low) ∨
    (s.sub = 3 ∧ p = .grayscaleClock ∧ l = .high) ∨ (s.sub = 4 ∧ p = .grayscaleClock ∧ l = .low) := by
  simp only [nextWrite, nextPinOp, hp, cursorChannel_eq_some hc, nextShift] at h
  split at h
  · split at h <;> cases h <;> simp [← BitVec.toNat_inj, *]
  · cases h

theorem nextWrite_pad_cases {s : State} {p : Pin} {l : Level} (hp : s.ph = .transferring)
    (hc : ¬ s.ch.toNat < 16) (h : nextWrite s = some (p, l)) :
    (s.sub = 0 ∧ p = .data ∧ l = .low) ∨ (s.sub = 3 ∧ p = .grayscaleClock ∧ l = .high) ∨
    (s.sub = 4 ∧ p = .grayscaleClock ∧ l = .low) := by
  simp only [nextWrite, nextPinOp, hp, cursorChannel_eq_none (Nat.le_of_not_lt hc), nextPad] at h
  split at h <;> cases h <;> simp [← BitVec.toNat_inj, *]

theorem nextWrite_committing_cases {s : State} {p : Pin} {l : Level} (hp : s.ph = .committing)
    (h : nextWrite s = some (p, l)) :
    (s.sub = 0 ∧ p = .blank ∧ l = .high) ∨ (s.sub = 1 ∧ p = .latch ∧ l = .high) ∨
    (s.sub = 2 ∧ p = .latch ∧ l = .low) := by
  simp only [nextWrite, nextPinOp, hp, nextCommitting] at h
  split at h <;> cases h <;> simp [← BitVec.toNat_inj, *]

/-! ### The advance inside a phase and at its end, row by row (R162, R165 to R173) -/

theorem advanceConstructing_of_last {s : State} (h : s.sub = 4) : advanceConstructing s = finishNew s :=
  if_pos h

theorem advanceConstructing_of_not_last {s : State} (h : s.sub ≠ 4) :
    advanceConstructing s = { s with sub := s.sub + 1 } :=
  if_neg h

theorem advanceShift_of_last {s : State} (h : s.sub = 4) : advanceShift s = endIteration (nextBit s) :=
  if_pos h

theorem advanceShift_of_not_last {s : State} (h : s.sub ≠ 4) :
    advanceShift s = { s with sub := s.sub + 1 } :=
  if_neg h

theorem advancePad_of_first {s : State} (h : s.sub = 0) : advancePad s = { s with sub := 3 } := by
  simp [advancePad, h]

theorem advancePad_of_three {s : State} (h : s.sub = 3) : advancePad s = { s with sub := 4 } := by
  simp [advancePad, h]

theorem advancePad_of_last {s : State} (h : s.sub = 4) : advancePad s = endIteration s :=
  if_pos h

theorem advanceCommitting_of_last {s : State} (h : s.sub = 2) : advanceCommitting s = finishUpdate s :=
  if_pos h

theorem advanceCommitting_of_not_last {s : State} (h : s.sub ≠ 2) :
    advanceCommitting s = { s with sub := s.sub + 1 } :=
  if_neg h

theorem endIteration_of_not_last {s : State} (h : s.pulse + 1 ≠ 4096) :
    endIteration s = { s with pulse := s.pulse + 1, sub := 0 } := by
  simp only [endIteration, if_neg h]

theorem endIteration_of_last {s : State} (h : s.pulse + 1 = 4096) :
    endIteration s = { s with pulse := 4096, sub := 0, ph := .committing } := by
  simp only [endIteration, h, if_pos]

@[simp] theorem nextBit_pin (s : State) : (nextBit s).pin = s.pin := by
  unfold nextBit
  split <;> rfl

@[simp] theorem nextBit_pulse (s : State) : (nextBit s).pulse = s.pulse := by
  unfold nextBit
  split <;> rfl

theorem positionOk_of_shift {s : State} (hp : s.ph = .transferring) (hc : s.ch.toNat < 16)
    (hbit : s.bit.toNat ≤ 11) (hsub : s.sub.toNat ≤ 4)
    (hpulse : s.pulse.toNat = 12 * (15 - s.ch.toNat) + (11 - s.bit.toNat)) : positionOk s = true := by
  simp [positionOk, hp, hc, hbit, hsub, hpulse]

theorem positionOk_of_pad {s : State} (hp : s.ph = .transferring) (hc : s.ch = -1) (hbit : s.bit = 11)
    (hsub : s.sub = 0 ∨ s.sub = 3 ∨ s.sub = 4) (hge : 192 ≤ s.pulse.toNat) (hle : s.pulse.toNat ≤ 4095) :
    positionOk s = true := by
  simpa [positionOk, hp, hc, hbit, hge, hle] using hsub

/-- The end of a shift iteration is the next position of R178: the next bit, the next channel, or the first pad
iteration. -/
theorem positionOk_endIteration_nextBit {s : State} (hp : s.ph = .transferring) (hc : s.ch.toNat < 16)
    (hbit : s.bit.toNat ≤ 11)
    (hpulse : s.pulse.toNat = 12 * (15 - s.ch.toNat) + (11 - s.bit.toNat)) :
    (endIteration (nextBit s)).ph = .transferring ∧ positionOk (endIteration (nextBit s)) = true := by
  have hne : (nextBit s).pulse + 1 ≠ 4096 := by rw [nextBit_pulse]; bv_omega
  have hsucc : (s.pulse + 1).toNat = s.pulse.toNat + 1 := by bv_omega
  rw [endIteration_of_not_last hne, nextBit_pulse]
  refine ⟨by rw [nextBit_ph, hp], ?_⟩
  by_cases hb : s.bit = 0
  · rw [nextBit_of_zero hb]
    have hb' : s.bit.toNat = 0 := by rw [hb]; rfl
    by_cases hc0 : s.ch = 0
    · have hc' : s.ch.toNat = 0 := by rw [hc0]; rfl
      exact positionOk_of_pad hp (by simp [hc0]) rfl (.inl rfl) (by simp only; omega) (by simp only; omega)
    · have hc' : (s.ch - 1).toNat = s.ch.toNat - 1 := by bv_omega
      have hpos : 0 < s.ch.toNat := by bv_omega
      refine positionOk_of_shift hp ?_ (Nat.le_refl 11) (Nat.zero_le 4) ?_
      · show (s.ch - 1).toNat < 16
        omega
      · show (s.pulse + 1).toNat = 12 * (15 - (s.ch - 1).toNat) + (11 - 11)
        omega
  · rw [nextBit_of_ne_zero hb]
    have hb' : (s.bit - 1).toNat = s.bit.toNat - 1 := by bv_omega
    have hpos : 0 < s.bit.toNat := by bv_omega
    refine positionOk_of_shift hp hc ?_ (Nat.zero_le 4) ?_
    · show (s.bit - 1).toNat ≤ 11
      omega
    · show (s.pulse + 1).toNat = 12 * (15 - s.ch.toNat) + (11 - (s.bit - 1).toNat)
      omega

/-! ### A write answered `Ok`, phase by phase -/

theorem written_pin_of_ok {s : State} {p : Pin} {l : Level} (hok : (written s p l).ret = .ok) :
    (written s p l).pin = setPin s.pin p (committed l) := by
  rw [pinWrite_ret] at hok
  rw [pinWrite_pin, hok, lineAfter_ok, takeSample_pin]

section
variable {s : State} {p : Pin} {l : Level} (hinv : inv s = true) (hw : nextWrite s = some (p, l))
  (hok : (written s p l).ret = .ok)
include hw hok

theorem inv_advance_of_blanking (hp : s.ph = .blanking) : inv (advance (written s p l)) = true := by
  obtain ⟨rfl, rfl⟩ : .blank = p ∧ .low = l := by simpa [nextWrite_blanking hp] using hw
  rw [advance_of_ok hok, advanceOk_of_blanking (s := written s _ _) hp,
    inv_shift_iff rfl (show (15 : BitVec 5).toNat < 16 by decide), beginTransfer_pin, written_pin_of_ok hok]
  simp [setPin]

include hinv

theorem inv_advance_of_constructing (hp : s.ph = .constructing) :
    inv (advance (written s p l)) = true := by
  obtain ⟨hsub, hlines⟩ := (inv_constructing_iff hp).mp hinv
  have hpin := written_pin_of_ok hok
  rw [advance_of_ok hok, advanceOk_of_constructing (s := written s p l) hp]
  obtain ⟨h, rfl, rfl⟩ | ⟨h, rfl, rfl⟩ | ⟨h, rfl, rfl⟩ | ⟨h, rfl, rfl⟩ | ⟨h, rfl, rfl⟩ :=
    nextWrite_constructing_cases hp hw
  case inr.inr.inr.inr =>
    rw [advanceConstructing_of_last (s := written s _ _) h, inv_idle_iff rfl, finishNew_pin, hpin]
    simp_all [setPin, idleLines]
  all_goals
    rw [advanceConstructing_of_not_last (s := written s _ _) (by simp [h]), inv_constructing_iff (by exact hp)]
    simp_all [setPin]

theorem inv_advance_of_shift (hp : s.ph = .transferring) (hc : s.ch.toNat < 16) :
    inv (advance (written s p l)) = true := by
  obtain ⟨⟨hbit, hsub, hpulse⟩, hlines⟩ := (inv_shift_iff hp hc).mp hinv
  have hpin := written_pin_of_ok hok
  rw [advance_of_ok hok, advanceOk_of_shift (s := written s p l) hp (cursorChannel_eq_some hc)]
  obtain ⟨h, rfl, rfl⟩ | ⟨h, rfl, rfl⟩ | ⟨h, rfl, rfl⟩ | ⟨h, rfl, rfl⟩ | ⟨h, rfl, rfl⟩ :=
    nextWrite_shift_cases hp hc hw
  case inr.inr.inr.inr =>
    rw [advanceShift_of_last (s := written s _ _) h]
    obtain ⟨hph, hpos⟩ := positionOk_endIteration_nextBit (s := written s _ _) hp hc hbit hpulse
    rw [inv, hpos, linesOk_of_iteration_start hph rfl] <;> simp_all [setPin]
  all_goals
    rw [advanceShift_of_not_last (s := written s _ _) (by simp [h]), inv_shift_iff (by exact hp) (by exact hc)]
    simp_all [setPin]

theorem inv_advance_of_pad (hp : s.ph = .transferring) (hc : ¬ s.ch.toNat < 16) :
    inv (advance (written s p l)) = true := by
  obtain ⟨⟨hch, hbit, hsub, hge, hle⟩, hlines⟩ := (inv_pad_iff hp hc).mp hinv
  have hpin := written_pin_of_ok hok
  have hcur := cursorChannel_eq_none (Nat.le_of_not_lt hc)
  rw [advance_of_ok hok, advanceOk_of_pad (s := written s p l) hp hcur]
  obtain ⟨h, rfl, rfl⟩ | ⟨h, rfl, rfl⟩ | ⟨h, rfl, rfl⟩ := nextWrite_pad_cases hp hc hw
  · rw [advancePad_of_first (s := written s _ _) h, inv_pad_iff (by exact hp) (by exact hc)]
    simp_all [setPin]
  · rw [advancePad_of_three (s := written s _ _) h, inv_pad_iff (by exact hp) (by exact hc)]
    simp_all [setPin]
  · rw [advancePad_of_last (s := written s _ _) h]
    by_cases hend : s.pulse + 1 = 4096
    · rw [endIteration_of_last (s := written s _ _) hend, inv_committing_iff rfl]
      simp_all [setPin]
    · have hge' : 192 ≤ (s.pulse + 1).toNat := by bv_omega
      have hle' : (s.pulse + 1).toNat ≤ 4095 := by bv_omega
      rw [endIteration_of_not_last (s := written s _ _) hend, inv_pad_iff (by exact hp) (by exact hc)]
      simp_all [setPin]

theorem inv_advance_of_committing (hp : s.ph = .committing) : inv (advance (written s p l)) = true := by
  obtain ⟨⟨hch, hbit, hsub, hpulse⟩, hlines⟩ := (inv_committing_iff hp).mp hinv
  have hpin := written_pin_of_ok hok
  rw [advance_of_ok hok, advanceOk_of_committing (s := written s p l) hp]
  obtain ⟨h, rfl, rfl⟩ | ⟨h, rfl, rfl⟩ | ⟨h, rfl, rfl⟩ := nextWrite_committing_cases hp hw
  case inr.inr =>
    rw [advanceCommitting_of_last (s := written s _ _) h, inv_idle_iff rfl, finishUpdate_pin, hpin]
    simp_all [setPin, idleLines]
  all_goals
    rw [advanceCommitting_of_not_last (s := written s _ _) (by simp [h]), inv_committing_iff (by exact hp)]
    simp_all [setPin]

theorem inv_advance_of_ok : inv (advance (written s p l)) = true := by
  rcases (busy_iff s).mp (busy_of_nextWrite hw) with hp | hp | hp | hp
  · exact inv_advance_of_constructing hinv hw hok hp
  · exact inv_advance_of_blanking hw hok hp
  · by_cases hc : s.ch.toNat < 16
    · exact inv_advance_of_shift hinv hw hok hp hc
    · exact inv_advance_of_pad hinv hw hok hp hc
  · exact inv_advance_of_committing hinv hw hok hp

end

/-! ### Every step -/

/-- Every exceptional event leads to a phase that says nothing of the lines (R190). -/
theorem inv_raiseExn (x : Exn) (s : State) : inv (raiseExn x s) = true := by
  cases x with
  | pinWriteFailed e =>
    by_cases hp : s.ph = .constructing
    · rw [raiseExn_pinWriteFailed_new hp]
      exact inv_of_unconstrained (.inl rfl)
    · rw [raiseExn_pinWriteFailed_update hp]
      exact inv_of_unconstrained (.inr (.inr (.inl rfl)))
  | indexFault | illegalCommand => exact inv_of_unconstrained (.inr (.inr (.inr rfl)))

theorem inv_advance {s : State} {p : Pin} {l : Level} (hinv : inv s = true)
    (hw : nextWrite s = some (p, l)) : inv (advance (written s p l)) = true := by
  cases hret : (written s p l).ret with
  | ok => exact inv_advance_of_ok hinv hw hret
  | err e =>
    rw [advance_of_err hret]
    exact inv_raiseExn _ _

/-- Outside the busy phases the invariant speaks of the lines only, and only in `IDLE`. -/
theorem inv_of_same_pin {s t : State} (hp : s.ph = .idle ∨ s.ph = .failed) (hph : t.ph = s.ph)
    (hpin : t.pin = s.pin) (hinv : inv s = true) : inv t = true := by
  rcases hp with hp | hp
  · rw [inv_idle_iff (hph.trans hp), hpin]
    exact (inv_idle_iff hp).mp hinv
  · exact inv_of_unconstrained (.inr (.inr (.inl (hph.trans hp))))

theorem Accepted.keeps_inv {s t : State} {i : Instr} (h : Accepted s i t) (hinv : inv s = true) :
    inv t = true := by
  cases h with
  | new => exact (inv_constructing_iff rfl).mpr (by simp)
  | update => exact inv_of_unconstrained (.inr (.inl rfl))
  | setAll hp | clear hp | setChannel hp => exact inv_of_same_pin hp rfl rfl hinv
  | badIndex | notAdmitted => exact inv_raiseExn _ _

theorem QuietStep.keeps_inv {s t : State} (h : QuietStep s t) (hinv : inv s = true) :
    inv t = true := by
  cases h with
  | write hw => exact inv_advance hinv hw
  | command _ _ _ _ ha => exact ha.keeps_inv hinv
  | illegal => exact inv_raiseExn _ _
  | direct hp _ ws => exact inv_of_unconstrained (.inl ((runWrites_ph ws _).trans hp))
  | hold => exact hinv

/-- Settles O37: `rst` leads to `UNINIT`, and every other step keeps the invariant, case by case of what a step
can do. -/
theorem everyStepKeepsTheInvariant : Obligations.EveryStepKeepsTheInvariant := by
  unfold Obligations.EveryStepKeepsTheInvariant
  intro s t hinv hstep
  cases hr : rstHigh s with
  | true =>
    obtain ⟨f, rfl⟩ := eq_hardwareReset_of_step hr hstep
    exact inv_of_unconstrained (.inl rfl)
  | false => exact (quietStep_of_step hr hstep).keeps_inv hinv

end Sys2Proof.Machine
end

section
/-! PROOFS. A busy step is one write; no other step without `rst` reaches a pin (R61, R160, R175). -/

namespace Sys2Proof.Machine

/-- Settles O41: the step is the sequencer's write, or one that touches neither the trace nor a line. -/
theorem oneEventAStepAndOnlyWhileBusy : Obligations.OneEventAStepAndOnlyWhileBusy := by
  unfold Obligations.OneEventAStepAndOnlyWhileBusy
  intro s t hr hstep
  have h := quietStep_of_step hr hstep
  refine ⟨fun hb => ?_, fun hb hnd => ?_⟩
  · obtain ⟨p, l, hw, rfl⟩ := h.eq_advance_of_busy hb
    obtain ⟨htr, -⟩ := advance_frame (written s p l)
    have hans : pinAnswer p l (takeSample s) = pinAnswer p l s := pinAnswer_congr rfl rfl p l
    exact ⟨p, l, hw, by rw [htr, pinWrite_tr, hans, takeSample_tr]⟩
  · cases h with
    | write hw => simp [busy_of_nextWrite hw] at hb
    | command _ _ _ _ ha => cases ha <;> exact ⟨rfl, rfl, rfl⟩
    | illegal | hold => exact ⟨rfl, rfl, rfl⟩
    | direct hp hd => simp [hp, hd] at hnd

end Sys2Proof.Machine
end

section
/-! PROOFS. The levels clocked out by one `UPDATE` are the serial frame (R53, R62, R79). -/

namespace Sys2Proof.Machine

/-! ### The clock rises of the writes -/

theorem clockedLevels_eq_nil {ws : List (Pin × Level)} (h : (.clock, .high) ∉ ws) (d : Option Level) :
    clockedLevels d ws = [] := by
  induction ws generalizing d with
  | nil => rfl
  | cons w ws ih =>
    obtain ⟨hne, hrest⟩ : (.clock, .high) ≠ w ∧ (.clock, .high) ∉ ws := by simpa using h
    obtain ⟨p, l⟩ := w
    cases p with
    | clock =>
      cases l with
      | low => exact ih hrest d
      | high => exact absurd rfl hne
    | data => exact ih hrest (some l)
    | blank | latch | grayscaleClock => exact ih hrest d

/-- A shift iteration clocks out its data bit, whatever data held before it (R62, R142). -/
theorem clockedLevels_shiftIteration_append (gs : Buffer) (c : Fin 16) (b : Nat) (ws : List (Pin × Level))
    (d : Option Level) :
    clockedLevels d (shiftIteration gs c b ++ ws) =
      some (lvl (dataBit gs c b)) :: clockedLevels (some (lvl (dataBit gs c b))) ws := rfl

/-- Shift iterations clock out their data bits, when no clock rise follows. -/
theorem clockedLevels_shiftIterations_append (gs : Buffer) {ws : List (Pin × Level)}
    (h : (.clock, .high) ∉ ws) (cbs : List (Fin 16 × Nat)) (d : Option Level) :
    clockedLevels d (cbs.flatMap (fun cb => shiftIteration gs cb.1 cb.2) ++ ws) =
      cbs.map fun cb => some (lvl (dataBit gs cb.1 cb.2)) := by
  induction cbs generalizing d with
  | nil => exact clockedLevels_eq_nil h d
  | cons cb cbs ih =>
    rw [List.flatMap_cons, List.append_assoc, clockedLevels_shiftIteration_append, ih, List.map_cons]

theorem clockHigh_not_mem_padWrites_append_commitWrites :
    (.clock, .high) ∉ padWrites ++ commitWrites := by
  simp [padWrites, padIteration, commitWrites]

/-! ### The order of the bits -/

/-- The bit positions of R140's two loops: channel 15 and bit 11 first. -/
def shiftOrder : List (Fin 16 × Nat) :=
  (List.finRange 16).reverse.flatMap fun c => (List.range Config.GSBITS).reverse.map fun b => (c, b)

theorem shiftWrites_eq_flatMap_shiftOrder (gs : Buffer) :
    shiftWrites gs = shiftOrder.flatMap fun cb => shiftIteration gs cb.1 cb.2 := by
  simp only [shiftWrites, shiftOrder, List.flatMap_assoc, List.flatMap_map]

/-- A counter of `m * n` steps is two nested loops. -/
theorem range_mul_eq_flatMap (m n : Nat) :
    List.range (m * n) = (List.range m).flatMap fun q => (List.range n).map (q * n + ·) := by
  induction m with
  | zero => simp
  | succ m ih =>
    rw [Nat.succ_mul, List.range_add, ih, List.range_succ, List.flatMap_append, List.flatMap_singleton]

theorem finRange_reverse_eq_map :
    (List.finRange 16).reverse = (List.range 16).map fun q => Fin.ofNat 16 (15 - q) := by decide

theorem range_gsbits_reverse_eq_map :
    (List.range Config.GSBITS).reverse = (List.range 12).map (11 - ·) := by decide

/-- The counter `k` of R79 runs through the bit positions in the order of the loops. -/
theorem shiftOrder_eq_map_range :
    shiftOrder = (List.range 192).map fun k => (Fin.ofNat 16 (15 - k / 12), 11 - k % 12) := by
  rw [shiftOrder, finRange_reverse_eq_map, range_gsbits_reverse_eq_map, show 192 = 16 * 12 from rfl,
    range_mul_eq_flatMap, List.map_flatMap, List.flatMap_map]
  refine List.flatMap_congr fun q _ => ?_
  rw [List.map_map, List.map_map]
  refine List.map_congr_left fun r hr => ?_
  have hlt : r < 12 := List.mem_range.mp hr
  have hdiv : (q * 12 + r) / 12 = q := by omega
  have hmod : (q * 12 + r) % 12 = r := by omega
  simp only [Function.comp, hdiv, hmod]

/-! ### The frame -/

theorem frameBit_eq_getLsbD (gs : Buffer) (k : Nat) :
    frameBit gs k = gs[15 - k / 12]!.getLsbD (11 - k % 12) := by
  have hlt : 15 - k / 12 < 16 := by omega
  rw [getElem!_pos gs (15 - k / 12) hlt]
  simp [frameBit, dataBit, bufRead, Nat.mod_eq_of_lt hlt]

/-- Settles O54: only the shift iterations raise the clock, each after its own data bit, in the frame's order. -/
theorem clockedLevelsAreTheFrame : Obligations.ClockedLevelsAreTheFrame := by
  unfold Obligations.ClockedLevelsAreTheFrame
  intro gs
  calc clockedLevels none (updateWrites gs)
      = clockedLevels none (shiftWrites gs ++ (padWrites ++ commitWrites)) := rfl
    _ = shiftOrder.map fun cb => some (lvl (dataBit gs cb.1 cb.2)) := by
      rw [shiftWrites_eq_flatMap_shiftOrder,
        clockedLevels_shiftIterations_append gs clockHigh_not_mem_padWrites_append_commitWrites]
    _ = (List.range 192).map fun k => some (lvl (frameBit gs k)) := by
      rw [shiftOrder_eq_map_range, List.map_map]
      rfl
    _ = _ := by simp only [frameBit_eq_getLsbD, lvl]

end Sys2Proof.Machine
end

section
/-! PROOFS. The encoding: decoding what the encoder packs, the words of the opcode table, and the rows as masks
(R71, R72, R75, R76, R83). -/

namespace Sys2Proof

/-- Settles O50: by cases on the instruction, each by its round trip. -/
theorem decodingAnEncodingGivesItBack : Obligations.DecodingAnEncodingGivesItBack := by
  unfold Obligations.DecodingAnEncodingGivesItBack
  intro i
  cases i with
  | new => exact Laws.RoundTrip.new
  | setChannel idx val => exact Laws.RoundTrip.setChannel idx val
  | setAll val => exact Laws.RoundTrip.setAll val
  | clear => exact Laws.RoundTrip.clear
  | update => exact Laws.RoundTrip.update
  | setLow p => exact Laws.RoundTrip.setLow p
  | setHigh p => exact Laws.RoundTrip.setHigh p
  | setValue p v => exact Laws.RoundTrip.setValue p v
  | pulse p => exact Laws.RoundTrip.pulse p

/-- Settles O48: each word of the table is what the encoder packs for its instruction. -/
theorem tableWordsDecode : Obligations.TableWordsDecode := by
  unfold Obligations.TableWordsDecode
  have decodes := decodingAnEncodingGivesItBack
  exact ⟨decodes .new rfl, decodes (.setChannel 3 0x555) rfl, decodes (.setChannel 255 0x1234) rfl,
    decodes (.setAll 0xAAA) rfl, decodes .clear rfl, decodes .update rfl, decodes (.setLow .blank) rfl,
    decodes (.setHigh .grayscaleClock) rfl, decodes (.pulse .clock) rfl⟩

/-! ### A word and its fields -/

/-- The four fields cover the word (R71). -/
theorem fields_append (w : CommandWord) : opcField w ++ zeroField w ++ idxField w ++ valField w = w := by
  have hhigh : opcField w ++ zeroField w = w.extractLsb' 24 8 :=
    BitVec.extractLsb'_append_extractLsb'_eq_extractLsb' rfl
  have hupper : w.extractLsb' 24 8 ++ idxField w = w.extractLsb' 16 16 :=
    BitVec.extractLsb'_append_extractLsb'_eq_extractLsb' rfl
  have hword : w.extractLsb' 16 16 ++ valField w = w.extractLsb' 0 32 :=
    BitVec.extractLsb'_append_extractLsb'_eq_extractLsb' rfl
  rw [hhigh, hupper, hword]
  exact BitVec.extractLsb'_eq_self

theorem commandWord_eq_iff {w v : CommandWord} : w = v ↔
    opcField w = opcField v ∧ zeroField w = zeroField v ∧ idxField w = idxField v ∧ valField w = valField v := by
  refine ⟨by rintro rfl; exact ⟨rfl, rfl, rfl, rfl⟩, ?_⟩
  rintro ⟨hopc, hzero, hidx, hval⟩
  rw [← fields_append w, hopc, hzero, hidx, hval, fields_append v]

/-! ### Mask and match, field by field -/

/-- The mask of every row covers `OPC` and `ZERO`; what it covers of `IDX` and `VAL` is the row's own (R72). -/
theorem and_mask_eq_packCommand_iff {w mask : CommandWord} {maskIdx : BitVec 8} {maskVal : ChannelValue}
    (hopc : opcField mask = BitVec.allOnes 4) (hzero : zeroField mask = BitVec.allOnes 4)
    (hidx : idxField mask = maskIdx) (hval : valField mask = maskVal)
    (opc : BitVec 4) (idx : BitVec 8) (val : ChannelValue) :
    w &&& mask = packCommand opc idx val ↔
      opcField w = opc ∧ zeroField w = 0 ∧ idxField w &&& maskIdx = idx ∧ valField w &&& maskVal = val := by
  have opc_and : opcField (w &&& mask) = opcField w &&& opcField mask := BitVec.extractLsb'_and
  have zero_and : zeroField (w &&& mask) = zeroField w &&& zeroField mask := BitVec.extractLsb'_and
  have idx_and : idxField (w &&& mask) = idxField w &&& idxField mask := BitVec.extractLsb'_and
  have val_and : valField (w &&& mask) = valField w &&& valField mask := BitVec.extractLsb'_and
  rw [commandWord_eq_iff, opc_and, zero_and, idx_and, val_and, hopc, hzero, hidx, hval, BitVec.and_allOnes,
    BitVec.and_allOnes, Laws.RoundTrip.opcField_pack, Laws.RoundTrip.zeroField_pack,
    Laws.RoundTrip.idxField_pack, Laws.RoundTrip.valField_pack]

/-- The mask of the rows without operands covers the whole word. -/
theorem fullMask_iff {w : CommandWord} (opc : BitVec 4) : w &&& 0xFFFFFFFF#32 = packCommand opc 0 0 ↔
    opcField w = opc ∧ zeroField w = 0 ∧ idxField w = 0 ∧ valField w = 0 := by
  have h := and_mask_eq_packCommand_iff (w := w) (mask := 0xFFFFFFFF#32) (maskIdx := BitVec.allOnes 8)
    (maskVal := BitVec.allOnes 16) rfl rfl rfl rfl opc 0 0
  simpa only [BitVec.and_allOnes] using h

/-- The mask of `SET_CHANNEL` leaves `IDX` and `VAL` open. -/
theorem setChannelMask_iff {w : CommandWord} : w &&& 0xFF000000#32 = packCommand 2 0 0 ↔
    opcField w = 2 ∧ zeroField w = 0 := by
  have h := and_mask_eq_packCommand_iff (w := w) (mask := 0xFF000000#32) (maskIdx := 0) (maskVal := 0)
    rfl rfl rfl rfl 2 0 0
  simpa using h

/-- The mask of `SET_ALL` leaves `VAL` open. -/
theorem setAllMask_iff {w : CommandWord} : w &&& 0xFFFF0000#32 = packCommand 3 0 0 ↔
    opcField w = 3 ∧ zeroField w = 0 ∧ idxField w = 0 := by
  have h := and_mask_eq_packCommand_iff (w := w) (mask := 0xFFFF0000#32) (maskIdx := BitVec.allOnes 8)
    (maskVal := 0) rfl rfl rfl rfl 3 0 0
  rw [BitVec.and_allOnes] at h
  simpa using h

/-! ### The decoder, row by row -/

theorem ite_error_eq_ok_iff {p : Prop} [Decidable p] {e : DecodeError} {r : Except DecodeError Instr}
    {i : Instr} : (if p then r else .error e) = .ok i ↔ p ∧ r = .ok i := by
  by_cases h : p <;> simp [h]

theorem withoutOperands_eq_ok_iff {w : CommandWord} {i j : Instr} :
    withoutOperands w j = .ok i ↔ idxField w = 0 ∧ valField w = 0 ∧ i = j := by
  simp only [withoutOperands, ne_eq, ite_not, ite_error_eq_ok_iff, Except.ok.injEq, eq_comm (a := i)]

/-- The decoder field by field (R72, R75). -/
theorem decodeCommand_eq_ok_iff {w : CommandWord} {i : Instr} : decodeCommand w = .ok i ↔
    ((opcField w = 1 ∧ zeroField w = 0 ∧ idxField w = 0 ∧ valField w = 0) ∧ i = .new) ∨
    ((opcField w = 2 ∧ zeroField w = 0) ∧ i = .setChannel (idxField w) (valField w)) ∨
    ((opcField w = 3 ∧ zeroField w = 0 ∧ idxField w = 0) ∧ i = .setAll (valField w)) ∨
    ((opcField w = 4 ∧ zeroField w = 0 ∧ idxField w = 0 ∧ valField w = 0) ∧ i = .clear) ∨
    ((opcField w = 5 ∧ zeroField w = 0 ∧ idxField w = 0 ∧ valField w = 0) ∧ i = .update) := by
  simp only [decodeCommand, ne_eq, ite_not, ite_error_eq_ok_iff]
  by_cases hzero : zeroField w = 0#4
  · simp only [BitVec.ofNat_eq_ofNat, hzero, BitVec.toNat_eq (x := opcField w), true_and, and_true]
    split
    case h_1 hopc | h_4 hopc | h_5 hopc => simp [withoutOperands_eq_ok_iff, hopc, and_assoc]
    case h_2 hopc => simp [hopc, eq_comm (a := i)]
    case h_3 hopc => simp [ite_error_eq_ok_iff, hopc, eq_comm (a := i)]
    -- A reserved opcode is that of no row.
    case h_6 => simp_all
  · simp [hzero]

/-- Settles O49: mask and match of a row say what the decoder asks of the fields. -/
theorem wordsSpellExactlyTheirRows : Obligations.WordsSpellExactlyTheirRows := by
  unfold Obligations.WordsSpellExactlyTheirRows
  intro w i
  have hnew : w &&& 0xFFFFFFFF#32 = 0x10000000#32 ↔ _ := fullMask_iff 1
  have hsetChannel : w &&& 0xFF000000#32 = 0x20000000#32 ↔ _ := setChannelMask_iff
  have hsetAll : w &&& 0xFFFF0000#32 = 0x30000000#32 ↔ _ := setAllMask_iff
  have hclear : w &&& 0xFFFFFFFF#32 = 0x40000000#32 ↔ _ := fullMask_iff 4
  have hupdate : w &&& 0xFFFFFFFF#32 = 0x50000000#32 ↔ _ := fullMask_iff 5
  rw [hnew, hsetChannel, hsetAll, hclear, hupdate]
  exact decodeCommand_eq_ok_iff

end Sys2Proof
end

section
/-! PROOFS. The command port: when a word is taken and what the step then runs (R70, R74, R75, R83, R193, R195). -/

namespace Sys2Proof.Machine

/-- Settles O14: both fill the buffer with 0, under the same admission (R83, R132). -/
theorem clearIsSetAllZero : Obligations.ClearIsSetAllZero := by
  unfold Obligations.ClearIsSetAllZero
  intro s
  calc exec .clear s
      = onCommand admitsController (writeAll 0) s := rfl
    _ = exec (.setAll 0) s := rfl

theorem admitsNew_iff {ph : Phase} : admitsNew ph = true ↔ ph = .uninit ∨ ph = .idle ∨ ph = .failed := by
  cases ph <;> simp [admitsNew]

theorem cmdReady_iff {s : State} : cmdReady s = true ↔ busy s = false ∧ s.ph ≠ .halted := by
  simp [cmdReady]

/-- Settles O46: the phases that are neither busy nor `HALTED` are `UNINIT`, `IDLE` and `FAILED`. -/
theorem commandReadyExactlyWhenNewIsAdmitted : Obligations.CommandReadyExactlyWhenNewIsAdmitted := by
  unfold Obligations.CommandReadyExactlyWhenNewIsAdmitted
  intro s
  refine ⟨cmdReady_iff, fun hc => admitsNew_iff.mpr (phase_of_cmdReady hc), fun ha => ?_⟩
  rcases admitsNew_iff.mp ha with hp | hp | hp <;> simp [cmdReady_iff, busy, phaseBusy, hp]

/-! ### The word on the port of a ready block -/

section
variable {s : State} {w : CommandWord} {rest : List CommandWord}

/-- The word and one sample of `rst` are taken. -/
theorem commandTaken_of_cmd (hcmd : s.cmd = w :: rest) :
    commandTaken s = { s with cmd := rest, rst := s.rst.tail } := by
  simp [commandTaken, takeCommand, takeSample, hcmd]

variable (hc : cmdReady s = true) (hr : rstHigh s = false) (hd : s.ph = .uninit → s.direct = [])
  (hcmd : s.cmd = w :: rest)
include hc hr hd hcmd

theorem step_of_decodeCommand_ok {i : Instr} (hdec : decodeCommand w = .ok i) :
    step s = exec i (commandTaken s) := by
  have hf : fetch s = .command i := by simp [fetch_of_cmdReady hc hr hd, fetchCommand, hcmd, hdec]
  simp only [step, hf]

theorem step_of_decodeCommand_error {e : DecodeError} (hdec : decodeCommand w = .error e) :
    step s = .next (raiseExn .illegalCommand (commandTaken s)) := by
  have hf : fetch s = .illegal := by simp [fetch_of_cmdReady hc hr hd, fetchCommand, hcmd, hdec]
  simp only [step, hf]

end

/-- Settles O22: the selection of a ready block is the word on its port. -/
theorem stepRunsTheAcceptedCommand : Obligations.StepRunsTheAcceptedCommand := by
  unfold Obligations.StepRunsTheAcceptedCommand
  intro s w rest i hc hr hd hcmd hdec
  rw [step_of_decodeCommand_ok hc hr hd hcmd hdec, commandTaken_of_cmd hcmd]

/-- Settles O17: a word that is refused raises `IllegalCommand` (R193, R197). -/
theorem illegalWordHalts : Obligations.IllegalWordHalts := by
  unfold Obligations.IllegalWordHalts
  intro s w rest e hc hr hd hcmd hdec
  rw [step_of_decodeCommand_error hc hr hd hcmd hdec, commandTaken_of_cmd hcmd]
  rfl

/-! ### The port of a busy block -/

/-- Settles O19: a busy step is a pin write and the advance of the position, and an operation offered is held. -/
theorem busyBlockTakesNoCommand : Obligations.BusyBlockTakesNoCommand := by
  unfold Obligations.BusyBlockTakesNoCommand
  refine ⟨fun s t hb hr hstep => ?_, fun s i hb hi => ?_⟩
  · obtain ⟨p, l, -, rfl⟩ := (quietStep_of_step hr hstep).eq_advance_of_busy hb
    obtain ⟨-, -, -, -, hcmd, -, -⟩ := advance_frame (written s p l)
    rw [hcmd, pinWrite_cmd, takeSample_cmd]
  · have held (admits : Phase → Bool) (effect : State → State) : onCommand admits effect s = .next s :=
      onCommand_busy hb admits effect
    obtain rfl | rfl | rfl | ⟨v, rfl⟩ | ⟨idx, v, rfl⟩ := hi <;> exact held _ _

end Sys2Proof.Machine
end

section
/-! PROOFS. The pin port, position by position (R70, R76, R83, R107, R177). -/

namespace Sys2Proof.Machine

/-! ### The operation a position asks for, by phase -/

theorem nextPinOp_of_constructing {s : State} (hp : s.ph = .constructing) :
    nextPinOp s = nextConstructing s := by
  simp only [nextPinOp, hp]

theorem nextPinOp_of_blanking {s : State} (hp : s.ph = .blanking) : nextPinOp s = some (.setLow .blank) := by
  simp only [nextPinOp, hp]

theorem nextPinOp_of_shift {s : State} {c : Fin 16} (hp : s.ph = .transferring)
    (hc : s.ch.toNat = c.val) : nextPinOp s = nextShift c s := by
  have hcursor : cursorChannel s.ch = some c := by
    rw [cursorChannel_eq_some (hc ▸ c.isLt)]
    exact congrArg some (Fin.ext hc)
  simp only [nextPinOp, hp, hcursor]

theorem nextPinOp_of_pad {s : State} (hp : s.ph = .transferring) (hc : s.ch = -1) :
    nextPinOp s = nextPad s := by
  simp only [nextPinOp, hp, hc, cursorChannel_neg_one]

theorem nextPinOp_of_committing {s : State} (hp : s.ph = .committing) :
    nextPinOp s = nextCommitting s := by
  simp only [nextPinOp, hp]

/-! ### The transaction on the port -/

/-- The transaction that stands on the pin port for an operation of one write (R76, R83). -/
def transactionOf (i : Instr) : Option PinWord := (writeOf i).map fun w => packTransaction w.1 w.2

theorem pw_of_nextPinOp {s : State} {o : Option Instr} (h : nextPinOp s = o) : pw s = o.bind transactionOf := by
  subst h
  cases hn : nextPinOp s <;> simp [pw, nextWrite, hn, transactionOf]

theorem pw_of_not_busy {s : State} (hb : busy s = false) : pw s = none := by
  cases hw : nextWrite s with
  | none => simp [pw, hw]
  | some w => simp [busy_of_nextWrite hw] at hb

theorem pwValid_iff {s : State} : pwValid s = true ↔ ∃ w, pw s = some w := by
  cases hw : nextWrite s <;> simp [pwValid, pw, hw]

/-- The data bit of a shift iteration, as the transaction `SET_VALUE` appears as (R104, R165). -/
theorem transactionOf_setValue_lvl (b : Bool) :
    transactionOf (.setValue .data (.level (lvl b))) = some (if b then 0b0001#4 else 0b0000#4) := by
  cases b <;> rfl

theorem pw_shift {s : State} {c : Fin 16} (hp : s.ph = .transferring) (hc : s.ch.toNat = c.val)
    (hbit : s.bit.toNat ≤ 11) :
    (s.sub = 0 → pw s = some (if s.gs[c].getLsbD s.bit.toNat then 0b0001#4 else 0b0000#4)) ∧
    (s.sub = 1 → pw s = some 0b0011#4) ∧ (s.sub = 2 → pw s = some 0b0010#4) ∧
    (s.sub = 3 → pw s = some 0b1001#4) ∧ (s.sub = 4 → pw s = some 0b1000#4) := by
  rw [pw_of_nextPinOp (nextPinOp_of_shift hp hc), nextShift, if_pos hbit]
  refine ⟨fun h => ?_, fun h => ?_, fun h => ?_, fun h => ?_, fun h => ?_⟩ <;> rw [h]
  · exact transactionOf_setValue_lvl _
  all_goals rfl

/-- Settles O34: phase by phase, the transaction of the operation the position asks for. -/
theorem pinPortShowsTheNextWrite : Obligations.PinPortShowsTheNextWrite := by
  unfold Obligations.PinPortShowsTheNextWrite
  intro s
  refine ⟨pw_of_not_busy, pwValid_iff, fun hp => ?_, fun hp => ?_, fun hp c hc hbit => pw_shift hp hc hbit,
    fun hp hc => ?_, fun hp => ?_⟩
  · rw [pw_of_nextPinOp (nextPinOp_of_constructing hp), nextConstructing]
    refine ⟨?_, ?_, ?_, ?_, ?_⟩ <;> (intro h; rw [h]; rfl)
  · exact pw_of_nextPinOp (nextPinOp_of_blanking hp)
  · rw [pw_of_nextPinOp (nextPinOp_of_pad hp hc), nextPad]
    refine ⟨?_, ?_, ?_⟩ <;> (intro h; rw [h]; rfl)
  · rw [pw_of_nextPinOp (nextPinOp_of_committing hp), nextCommitting]
    refine ⟨?_, ?_, ?_⟩ <;> (intro h; rw [h]; rfl)

/-! ### Only `SET_LOW` and `SET_HIGH` appear -/

/-- The operation of R102 or R103 that writes the level `l`. -/
def setTo (p : Pin) : Level → Instr
  | .low  => .setLow p
  | .high => .setHigh p

theorem setTo_cases (p : Pin) (l : Level) : setTo p l = .setLow p ∨ setTo p l = .setHigh p := by
  cases l <;> simp [setTo]

theorem exec_setTo (p : Pin) (l : Level) (s : State) : exec (setTo p l) s = .next (pinWrite p l s) := by
  cases l <;> rfl

theorem decode_packTransaction (p : Pin) (l : Level) :
    decode (.transaction (packTransaction p l)) = .ok (setTo p l) := by
  cases l with
  | low => exact Laws.RoundTrip.decodeTransaction_low p
  | high => exact Laws.RoundTrip.decodeTransaction_high p

theorem onPort_of_writeOf {i : Instr} {p : Pin} {l : Level} (h : writeOf i = some (p, l)) :
    onPort i = setTo p l := by
  cases i with
  | setLow q | setHigh q => cases h; rfl
  | setValue q v =>
    obtain ⟨m, hv, hm⟩ := Option.map_eq_some_iff.mp h
    cases hm
    cases l <;> simp [onPort, hv, setTo]
  | _ => cases h

/-- Settles O51: the operation asked for is one write, which is packed for the port and decodes to itself. -/
theorem onlySetLowAndSetHighOnThePinPort : Obligations.OnlySetLowAndSetHighOnThePinPort := by
  unfold Obligations.OnlySetLowAndSetHighOnThePinPort
  refine ⟨fun s i hi => ?_, fun s w hw => ?_⟩
  · obtain ⟨p, l, hwrite, hnext⟩ := nextWrite_of_nextPinOp hi
    have hexec : exec (setTo p l) s = exec i s := by rw [exec_setTo, exec_of_writeOf hwrite]
    exact ⟨packTransaction p l, setTo p l, p, by simp [pw, hnext], decode_packTransaction p l, setTo_cases p l,
      (onPort_of_writeOf hwrite).symm, hexec⟩
  · obtain ⟨x, hnext, -⟩ := Option.map_eq_some_iff.mp hw
    obtain ⟨i, hi, -⟩ := nextPinOp_of_nextWrite hnext
    exact ⟨i, hi⟩

end Sys2Proof.Machine
end

section
/-! PROOFS. The pin capability: what each of its four operations does (R100 to R106), and the word presented at the
capability itself (log 11). -/

namespace Sys2Proof.Machine

/-! ### The lines after a pin write -/

theorem pinLevel_pinWrite_same (p : Pin) (l : Level) (s : State) :
    pinLevel (pinWrite p l s).pin p = lineAfter l (pinAnswer p l s) := by
  rw [pinWrite_pin, pinLevel_setPin_same]

theorem pinLevel_pinWrite_of_ok {p : Pin} {l : Level} {s : State} (h : pinAnswer p l s = .ok) :
    pinLevel (pinWrite p l s).pin p = committed l := by
  rw [pinLevel_pinWrite_same, h, lineAfter_ok]

theorem pinLevel_pinWrite_of_err {p : Pin} {l : Level} {s : State} {e : PinErr} (h : pinAnswer p l s = .err e) :
    pinLevel (pinWrite p l s).pin p = .x := by
  rw [pinLevel_pinWrite_same, h, lineAfter_err]

theorem pinLevel_pinWrite_ne {p q : Pin} (hq : q ≠ p) (l : Level) (s : State) :
    pinLevel (pinWrite p l s).pin q = pinLevel s.pin q := by
  rw [pinWrite_pin, pinLevel_setPin_ne _ _ hq]

/-! ### `SET_LOW` and `SET_HIGH` (R100, R102, R103) -/

/-- Settles O4: the operation is one pin write, whose answer is the environment's. -/
theorem pinWriteRecordsAndCommits : Obligations.PinWriteRecordsAndCommits := by
  unfold Obligations.PinWriteRecordsAndCommits
  intro p l s
  refine ⟨pinWrite p l s, pinAnswer p l s, ?_, fun a rest henv => ⟨pinAnswer_cons henv p l, ?_⟩,
    fun henv => ⟨pinAnswer_nil henv p l, ?_⟩, pinWrite_tr p l s, pinWrite_ret p l s, pinLevel_pinWrite_of_ok,
    fun e => pinLevel_pinWrite_of_err, fun q hq => pinLevel_pinWrite_ne hq l s, pinWrite_frame p l s⟩
  · cases l <;> rfl
  · rw [pinWrite_env, henv, List.tail_cons]
  · rw [pinWrite_env, henv, List.tail_nil]

/-! ### `SET_VALUE` (R104, R105) -/

theorem exec_setValue_of_levelOf_some {v : Value} {l : Level} (h : levelOf v = some l) (p : Pin) (s : State) :
    exec (.setValue p v) s = .next (pinWrite p l s) :=
  exec_of_writeOf (by simp [writeOf, h]) s

theorem exec_setValue_of_levelOf_none {v : Value} (h : levelOf v = none) (p : Pin) (s : State) :
    exec (.setValue p v) s = .refused .notConvertible := by
  simp only [exec, execSetValue, h]

theorem levelOf_number_of_two_le {n : Nat} (h : 2 ≤ n) : levelOf (.number n) = none := by
  have h0 : n ≠ 0 := by omega
  have h1 : n ≠ 1 := by omega
  simp [levelOf, h0, h1]

/-- Settles O5: the value converts to the level that the operation it dispatches to writes. -/
theorem setValueDispatches : Obligations.SetValueDispatches := by
  unfold Obligations.SetValueDispatches
  intro p s
  exact ⟨pinWrite p .low s, pinWrite p .high s, exec_setTo p .low s, exec_setTo p .high s,
    exec_setValue_of_levelOf_some rfl p s, exec_setValue_of_levelOf_some rfl p s,
    exec_setValue_of_levelOf_some rfl p s, exec_setValue_of_levelOf_some rfl p s, by simp, by simp⟩

/-- Settles O6: only 0 and 1 convert to a level (R105). -/
theorem setValueRefusesOtherValues : Obligations.SetValueRefusesOtherValues := by
  unfold Obligations.SetValueRefusesOtherValues
  intro p n s hn
  exact exec_setValue_of_levelOf_none (levelOf_number_of_two_le hn) p s

/-! ### `PULSE` (R106) -/

theorem pinLevel_pulsePin_ne {p q : Pin} (hq : q ≠ p) (s : State) :
    pinLevel (pulsePin p s).pin q = pinLevel s.pin q := by
  cases hhigh : (pinWrite p .high s).ret with
  | ok => rw [pulsePin_of_ok hhigh, pinLevel_pinWrite_ne hq, pinLevel_pinWrite_ne hq]
  | err e => rw [pulsePin_of_err hhigh, pinLevel_pinWrite_ne hq]

theorem pulsePin_frame (p : Pin) (s : State) :
    { pulsePin p s with tr := s.tr, pin := s.pin, env := s.env, ret := s.ret } = s := by
  rw [← runWrites_pulse]
  exact runWrites_frame _ s

/-- Settles O7: by the answer to the high write, after which the low write is made or not. -/
theorem pulseIsHighThenLow : Obligations.PulseIsHighThenLow := by
  unfold Obligations.PulseIsHighThenLow
  intro p s
  refine ⟨pulsePin p s, rfl, fun e hhigh => ?_, fun hhigh => ⟨pinAnswer p .low (pinWrite p .high s), ?_⟩,
    fun q hq => pinLevel_pulsePin_ne hq s, pulsePin_frame p s⟩
  · rw [pulsePin_of_err hhigh]
    exact ⟨by rw [pinWrite_tr, hhigh], pinLevel_pinWrite_of_err hhigh, hhigh, rfl⟩
  · rw [pulsePin_of_ok hhigh]
    refine ⟨fun a b rest henv => pinAnswer_cons (rest := rest) ?_ p .low, ?_, pinLevel_pinWrite_of_ok,
      fun e => pinLevel_pinWrite_of_err, rfl, rfl⟩
    · rw [pinWrite_env, henv, List.tail_cons]
    · rw [pinWrite_tr, pinWrite_tr, hhigh, List.append_assoc, List.singleton_append]

/-! ### A word at the capability itself (log 11) -/

/-- Settles O24: in `UNINIT` the selection is the word at the capability, before any command. -/
theorem stepRunsADirectPinOperation : Obligations.StepRunsADirectPinOperation := by
  unfold Obligations.StepRunsADirectPinOperation
  intro s b rest i hp hr hd hdec
  have hf : fetch s = .direct i := by simp [fetch_of_rstLow hr, fetchByPhase, fetchUninit, hp, hd, hdec]
  have htaken : takeDirect (takeSample s) = { s with direct := rest, rst := s.rst.tail } := by
    simp [takeDirect, takeSample, hd]
  simp only [step, hf, htaken]

end Sys2Proof.Machine
end

section
/-! PROOFS. Lists of writes: where they stop, what they leave when every answer is `Ok`, and that they do not read the
position. -/

namespace Sys2Proof.Machine

/-! ### The last success and the first failure -/

/-- Writes that all succeed, taken apart at the last one. -/
theorem runWrites_concat_eq_ok {ws : List (Pin × Level)} {w : Pin × Level} {s t : State}
    (h : runWrites (ws ++ [w]) s = (none, t)) :
    ∃ u, runWrites ws s = (none, u) ∧ (pinWrite w.1 w.2 u).ret = .ok ∧ t = pinWrite w.1 w.2 u := by
  induction ws generalizing s with
  | nil =>
    cases hret : (pinWrite w.1 w.2 s).ret with
    | ok =>
      rw [List.nil_append, runWrites_cons_of_ok _ hret] at h
      cases h
      exact ⟨s, rfl, hret, rfl⟩
    | err e => simp [runWrites_cons_of_err _ hret] at h
  | cons v ws ih =>
    rw [List.cons_append] at h
    cases hret : (pinWrite v.1 v.2 s).ret with
    | ok =>
      rw [runWrites_cons_of_ok _ hret] at h ⊢
      exact ih h
    | err e => simp [runWrites_cons_of_err _ hret] at h

/-- Writes that stop at an error: the index of the failing one, before which all succeed. -/
theorem runWrites_eq_err {ws : List (Pin × Level)} {s t : State} {e : PinErr}
    (h : runWrites ws s = (some e, t)) :
    ∃ f w u, ws[f]? = some w ∧ runWrites (ws.take f) s = (none, u) ∧
      (pinWrite w.1 w.2 u).ret = .err e ∧ t = pinWrite w.1 w.2 u := by
  induction ws generalizing s with
  | nil => cases h
  | cons w ws ih =>
    cases hret : (pinWrite w.1 w.2 s).ret with
    | ok =>
      rw [runWrites_cons_of_ok _ hret] at h
      obtain ⟨f, v, u, hv, hu, herr, ht⟩ := ih h
      exact ⟨f + 1, v, u, hv, (runWrites_cons_of_ok _ hret).trans hu, herr, ht⟩
    | err e' =>
      rw [runWrites_cons_of_err _ hret] at h
      cases h
      exact ⟨0, w, s, rfl, rfl, hret, rfl⟩

@[simp] theorem runWrites_rst (ws : List (Pin × Level)) (s : State) : (runWrites ws s).2.rst = s.rst :=
  (congrArg State.rst (runWrites_frame ws s) :)

/-- With a coming `Ok` for each write, all succeed, and the trace and the lines have their events (R100). -/
theorem runWrites_of_replicate_ok {ws : List (Pin × Level)} {s : State} {rest : List Answer}
    (henv : s.env = List.replicate ws.length .ok ++ rest) :
    ∃ t, runWrites ws s = (none, t) ∧ t.env = rest ∧ t.tr = s.tr ++ eventsOk ws ∧
      t.pin = (eventsOk ws).foldl commitEvent s.pin := by
  induction ws generalizing s with
  | nil => exact ⟨s, rfl, henv, (List.append_nil _).symm, rfl⟩
  | cons w ws ih =>
    rw [List.length_cons, List.replicate_succ, List.cons_append] at henv
    have hok : pinAnswer w.1 w.2 s = .ok := pinAnswer_cons henv w.1 w.2
    obtain ⟨t, hrun, ht, htr, hpin⟩ := ih (s := pinWrite w.1 w.2 s) (by simp [henv])
    refine ⟨t, (runWrites_cons_of_ok ws hok).trans hrun, ht, ?_, ?_⟩
    · rw [htr, pinWrite_tr, hok, List.append_assoc]
      rfl
    · rw [hpin, pinWrite_pin, hok]
      rfl

/-! ### Writes do not read the position registers -/

theorem pinWrite_sameButPosition {s t : State} (h : sameButPosition s t) (p : Pin) (l : Level) :
    sameButPosition (pinWrite p l s) (pinWrite p l t) := by
  unfold sameButPosition at h
  rw [← h]
  rfl

theorem runWrites_sameButPosition (ws : List (Pin × Level)) {s t : State} (h : sameButPosition s t) :
    (runWrites ws s).1 = (runWrites ws t).1 ∧ sameButPosition (runWrites ws s).2 (runWrites ws t).2 := by
  induction ws generalizing s t with
  | nil => exact ⟨rfl, h⟩
  | cons w ws ih =>
    have hw := pinWrite_sameButPosition h w.1 w.2
    have hret : (pinWrite w.1 w.2 t).ret = (pinWrite w.1 w.2 s).ret := (congrArg State.ret hw).symm
    cases hs : (pinWrite w.1 w.2 s).ret with
    | ok =>
      rw [runWrites_cons_of_ok _ hs, runWrites_cons_of_ok _ (hret.trans hs)]
      exact ih hw
    | err e =>
      rw [runWrites_cons_of_err _ hs, runWrites_cons_of_err _ (hret.trans hs)]
      exact ⟨rfl, hw⟩

end Sys2Proof.Machine
end

section
/-! PROOFS. Construction: the sequencer's five steps of `NEW` against the table of its writes (R120, R123, R161, R162,
R176). -/

namespace Sys2Proof.Machine

/-! ### One step -/

theorem exec_new_of_admitted {s : State} (hp : s.ph = .uninit ∨ s.ph = .idle ∨ s.ph = .failed) :
    exec .new s = .next (beginNew s) := by
  have hn : admitsNew s.ph = true := admitsNew_iff.mpr hp
  have hc : cmdReady s = true := by rcases hp with hp | hp | hp <;> simp [cmdReady, busy, phaseBusy, hp]
  exact onCommand_admitted hc hn beginNew

/-- The write asked for in `CONSTRUCTING` is entry `SUB` of R120's list. -/
theorem nextWrite_of_constructing {s : State} (hp : s.ph = .constructing) :
    nextWrite s = newWrites[s.sub.toNat]? := by
  simp only [nextWrite, nextPinOp_of_constructing hp, nextConstructing]
  generalize s.sub = x
  revert x
  decide

theorem advance_of_ok_constructing {s : State} (hp : s.ph = .constructing) (h : s.ret = .ok) :
    advance s = advanceConstructing s :=
  (advance_of_ok h).trans (advanceOk_of_constructing hp)

/-- The end of `NEW` after a failed write (R120, R162). -/
def failNew (e : PinErr) (s : State) : State := respond (.pinErr e) (forgetBuffer { s with ph := .uninit })

theorem advance_of_err_constructing {s : State} {e : PinErr} (hp : s.ph = .constructing) (h : s.ret = .err e) :
    advance s = failNew e s :=
  (advance_of_err h).trans (raiseExn_pinWriteFailed_new hp e)

/-- Settles O26: the write the position asks for, and then the failure of `NEW`. -/
theorem failedConstructionStep : Obligations.FailedConstructionStep := by
  unfold Obligations.FailedConstructionStep
  intro s p l e hp hr hw herr
  refine ⟨failNew e (written s p l), ?_, rfl⟩
  rw [step_of_nextWrite hr hw, advance_of_err_constructing (s := written s p l) hp herr]

/-! ### The steps up to a write, and the two ends -/

/-- The position before write `f` of `NEW`, when the writes before it have left `t`. -/
abbrev atNewWrite (f : Nat) (t : State) : State := { t with sub := BitVec.ofNat 3 f }

theorem step_atNewWrite {f : Nat} {w : Pin × Level} {t : State} (hp : t.ph = .constructing) (hr : t.rst = [])
    (hw : newWrites[f]? = some w) :
    step (atNewWrite f t) = .next (advance (atNewWrite f (pinWrite w.1 w.2 t))) := by
  have hf : f < 5 := (List.getElem?_eq_some_iff.mp hw).1
  have hsub : (BitVec.ofNat 3 f).toNat = f := by rw [BitVec.toNat_ofNat, Nat.mod_eq_of_lt (by omega)]
  have hnext : nextWrite (atNewWrite f t) = some w := by
    rw [nextWrite_of_constructing (s := atNewWrite f t) hp, hsub, hw]
  have htaken : takeSample (atNewWrite f t) = atNewWrite f t := by simp [takeSample, hr]
  rw [step_of_nextWrite (by simp [rstHigh, hr]) hnext, htaken]
  rfl

/-- After an `Ok` to one of the first four writes the position is that of the next. -/
theorem advance_atNewWrite {f : Nat} {t : State} (hp : t.ph = .constructing) (hok : t.ret = .ok) (hf : f < 4) :
    advance (atNewWrite f t) = atNewWrite (f + 1) t := by
  have hnot : BitVec.ofNat 3 f ≠ 4 := by interval_cases f <;> decide
  have hsucc : BitVec.ofNat 3 f + 1 = BitVec.ofNat 3 (f + 1) := (BitVec.ofNat_add f 1).symm
  calc advance (atNewWrite f t)
      = advanceConstructing (atNewWrite f t) := advance_of_ok_constructing hp hok
    _ = { atNewWrite f t with sub := BitVec.ofNat 3 f + 1 } := advanceConstructing_of_not_last hnot
    _ = atNewWrite (f + 1) t := by rw [hsucc]

/-- After an `Ok` to the fifth write `NEW` has completed. -/
theorem advance_atNewWrite_last {t : State} (hp : t.ph = .constructing) (hok : t.ret = .ok) :
    advance (atNewWrite 4 t) = finishNew t := by
  calc advance (atNewWrite 4 t)
      = advanceConstructing (atNewWrite 4 t) := advance_of_ok_constructing hp hok
    _ = finishNew (atNewWrite 4 t) := advanceConstructing_of_last rfl

theorem runWrites_beginNew_frame {ws : List (Pin × Level)} {o : Option PinErr} {s t : State}
    (h : runWrites ws (beginNew s) = (o, t)) :
    t.ph = .constructing ∧ t.rst = s.rst ∧ t.responses = s.responses := by
  obtain rfl : (runWrites ws (beginNew s)).2 = t := by rw [h]
  simp

section
variable {s t : State} {f : Nat} (hr : s.rst = [])
include hr

/-- While the writes of `NEW` succeed, the steps after its acceptance are those writes (R162). -/
theorem run_beginNew_of_ok (hf : f ≤ 4) (h : runWrites (newWrites.take f) (beginNew s) = (none, t)) :
    run f (beginNew s) = .next (atNewWrite f t) := by
  induction f generalizing t with
  | zero => cases h; rfl
  | succ f ih =>
    have hlen : f < newWrites.length := Nat.lt_succ_of_lt hf
    rw [List.take_succ_eq_append_getElem hlen] at h
    obtain ⟨u, hu, hok, rfl⟩ := runWrites_concat_eq_ok h
    obtain ⟨hp, hrst, -⟩ := runWrites_beginNew_frame hu
    rw [run_add (ih (Nat.le_of_succ_le hf) hu),
      run_succ (step_atNewWrite hp (hrst.trans hr) (List.getElem?_eq_getElem hlen)), run_zero]
    exact congrArg _ (advance_atNewWrite hp hok hf)

/-- Write `f` of `NEW` is made in step `f + 1` after its acceptance. -/
theorem run_beginNew_succ {w : Pin × Level} (hw : newWrites[f]? = some w)
    (h : runWrites (newWrites.take f) (beginNew s) = (none, t)) :
    run (f + 1) (beginNew s) = .next (advance (atNewWrite f (pinWrite w.1 w.2 t))) := by
  obtain ⟨hf, -⟩ := List.getElem?_eq_some_iff.mp hw
  obtain ⟨hp, hrst, -⟩ := runWrites_beginNew_frame h
  rw [run_add (run_beginNew_of_ok hr (Nat.le_of_lt_succ hf) h), run_succ (step_atNewWrite hp (hrst.trans hr) hw),
    run_zero]

/-- The run of a `NEW` whose writes all succeed (R120, R162). -/
theorem run_beginNew_completes (h : runWrites newWrites (beginNew s) = (none, t)) :
    run 5 (beginNew s) = .next (finishNew t) := by
  have hsplit : newWrites = newWrites.take 4 ++ [(.blank, .high)] := rfl
  rw [hsplit] at h
  obtain ⟨u, hu, hok, rfl⟩ := runWrites_concat_eq_ok h
  obtain ⟨hp, -⟩ := runWrites_beginNew_frame hu
  rw [run_beginNew_succ hr (w := (.blank, .high)) rfl hu]
  exact congrArg _ (advance_atNewWrite_last hp hok)

/-- The run of a `NEW` whose write `f` is the first to fail (R120, R162). -/
theorem run_beginNew_fails {w : Pin × Level} {e : PinErr} (hw : newWrites[f]? = some w)
    (h : runWrites (newWrites.take f) (beginNew s) = (none, t)) (herr : (pinWrite w.1 w.2 t).ret = .err e) :
    run (f + 1) (beginNew s) = .next (failNew e (atNewWrite f (pinWrite w.1 w.2 t))) := by
  obtain ⟨hp, -⟩ := runWrites_beginNew_frame h
  rw [run_beginNew_succ hr hw h]
  exact congrArg _ (advance_of_err_constructing hp herr)

end

/-! ### `NEW` as one operation (R176) -/

theorem operationNew_of_ok {s : State} (h : (runWrites newWrites { s with ph := .constructing }).1 = none) :
    operationNew s = respond .ok
      { (runWrites newWrites { s with ph := .constructing }).2 with gs := bufFill 0, ph := .idle } := by
  unfold operationNew
  split <;> simp_all

theorem operationNew_of_err {s : State} {e : PinErr}
    (h : (runWrites newWrites { s with ph := .constructing }).1 = some e) :
    operationNew s = failNew e (runWrites newWrites { s with ph := .constructing }).2 := by
  unfold operationNew
  split <;> simp_all [failNew]

theorem finishNew_sameButPosition {s t : State} (h : sameButPosition s t) :
    sameButPosition (respond .ok { s with gs := bufFill 0, ph := .idle }) (finishNew t) := by
  unfold sameButPosition at h
  rw [← h]
  rfl

theorem failNew_sameButPosition {s t : State} (h : sameButPosition s t) (e : PinErr) (f : Nat) :
    sameButPosition (failNew e s) (failNew e (atNewWrite f t)) := by
  unfold sameButPosition at h
  rw [← h]
  rfl

/-- Settles O56: the writes of the operation all succeed or stop at a first error, and so do the steps. -/
theorem newRunsToItsResult : Obligations.NewRunsToItsResult := by
  unfold Obligations.NewRunsToItsResult
  intro s hp hr
  have hstart : sameButPosition { s with ph := .constructing } (beginNew s) := rfl
  obtain ⟨hsame, hpos⟩ := runWrites_sameButPosition newWrites hstart
  cases hrun : runWrites newWrites (beginNew s) with
  | mk o t =>
    rw [hrun] at hsame hpos
    cases o with
    | none =>
      refine ⟨5, beginNew s, finishNew t, exec_new_of_admitted hp, by decide, by decide,
        run_beginNew_completes hr hrun, rfl, ?_⟩
      rw [operationNew_of_ok hsame]
      exact finishNew_sameButPosition hpos
    | some e =>
      obtain ⟨f, w, u, hw, hu, herr, rfl⟩ := runWrites_eq_err hrun
      obtain ⟨hf, -⟩ := List.getElem?_eq_some_iff.mp hw
      refine ⟨f + 1, beginNew s, _, exec_new_of_admitted hp, Nat.succ_pos f, hf,
        run_beginNew_fails hr hw hu herr, rfl, ?_⟩
      rw [operationNew_of_err hsame]
      exact failNew_sameButPosition hpos e f

/-! ### The table (R123) -/

section
variable {s : State} {rest : List Answer} (hr : s.rst = [])
include hr

/-- The row without a failing write. -/
theorem run_beginNew_of_env_ok (henv : s.env = List.replicate 5 .ok ++ rest) :
    ∃ t, run 5 (beginNew s) = .next t ∧ t.tr = s.tr ++ eventsOk newWrites ∧ t.ph = .idle ∧ t.rsp = .ok ∧
      t.responses = s.responses ++ [.ok] ∧ t.pin = idleLines ∧ (∀ i : Fin 16, t.gs[i] = 0) ∧ t.sub = 0 := by
  obtain ⟨t, hrun, -, htr, hpin⟩ := runWrites_of_replicate_ok (ws := newWrites) (s := beginNew s) henv
  obtain ⟨-, -, hresp⟩ := runWrites_beginNew_frame hrun
  exact ⟨finishNew t, run_beginNew_completes hr hrun, htr, rfl, rfl, by rw [finishNew_responses, hresp], hpin,
    bufRead_bufFill 0, rfl⟩

/-- The row of the first failing write `f`. -/
theorem run_beginNew_of_env_err {e : PinErr} (f : Nat) {w : Pin × Level} (hw : newWrites[f]? = some w)
    (henv : s.env = List.replicate f .ok ++ .err e :: rest) :
    ∃ t, run (f + 1) (beginNew s) = .next t ∧
      (t.ph = .uninit ∧ t.rsp = .pinErr e ∧ t.responses = s.responses ++ [.pinErr e]) ∧
      t.tr = s.tr ++ (eventsOk (newWrites.take f) ++ [{ pin := w.1, level := w.2, result := .err e }]) ∧
      t.pin = setPin ((eventsOk (newWrites.take f)).foldl commitEvent s.pin) w.1 .x ∧ t.sub = BitVec.ofNat 3 f := by
  obtain ⟨hf, -⟩ := List.getElem?_eq_some_iff.mp hw
  have hlen : (newWrites.take f).length = f := List.length_take_of_le (Nat.le_of_lt hf)
  obtain ⟨t, hrun, htenv, htr, hpin⟩ :=
    runWrites_of_replicate_ok (ws := newWrites.take f) (s := beginNew s) (by rw [hlen]; exact henv)
  obtain ⟨-, -, hresp⟩ := runWrites_beginNew_frame hrun
  have herr : pinAnswer w.1 w.2 t = .err e := pinAnswer_cons htenv w.1 w.2
  refine ⟨_, run_beginNew_fails hr hw hrun herr, ⟨rfl, rfl, ?_⟩, ?_, ?_, rfl⟩
  · simp [failNew, hresp]
  · simp [failNew, htr, herr]
  · simp [failNew, hpin, herr]

end

/-- Settles O57: row by row, with the writes of R120's list before the failing one. -/
theorem newTraceIsTheTable : Obligations.NewTraceIsTheTable := by
  unfold Obligations.NewTraceIsTheTable
  intro s e rest hp hr ok bad fails
  exact ⟨beginNew s, exec_new_of_admitted hp, run_beginNew_of_env_ok hr,
    run_beginNew_of_env_err hr 0 rfl, run_beginNew_of_env_err hr 1 rfl, run_beginNew_of_env_err hr 2 rfl,
    run_beginNew_of_env_err hr 3 rfl, run_beginNew_of_env_err hr 4 rfl⟩

end Sys2Proof.Machine
end

section
/-! PROOFS. Channel mutation: each setter is one assignment to the channel registers, answered `OK` (R130 to R134,
R147, R175). -/

namespace Sys2Proof.Machine

/-! ### The registers after an assignment -/

theorem getElem_bufFill (v : ChannelValue) (i : Fin 16) : (bufFill v)[i] = v :=
  bufRead_bufFill v i

theorem getElem_bufWrite (gs : Buffer) (j i : Fin 16) (v : ChannelValue) :
    (bufWrite gs j v)[i] = if i.val = j.val then v else gs[i] := by
  split
  · next h =>
    obtain rfl : i = j := Fin.ext h
    exact bufRead_bufWrite_same gs i v
  · next h => exact bufRead_bufWrite_ne gs v fun hij => h (congrArg Fin.val hij)

/-! ### Each setter as an assignment -/

/-- The registers take `gs`, and the host gets `OK`: the end of every setter that completes (R130 to R132). -/
def assign (gs : Buffer) (s : State) : State := respond .ok { s with gs := gs }

section
variable {s : State} (hp : s.ph = .idle ∨ s.ph = .failed)
include hp

theorem exec_setAll_eq_assign (v : ChannelValue) : exec (.setAll v) s = .next (assign (bufFill v) s) :=
  onCommand_of_idle_or_failed hp (writeAll v)

theorem exec_setChannel_eq_assign {idx : BitVec 8} (hi : idx.toNat < 16) (v : ChannelValue) :
    exec (.setChannel idx v) s = .next (assign (bufWrite s.gs ⟨idx.toNat, hi⟩ v) s) :=
  calc exec (.setChannel idx v) s
      = .next (writeChannel idx v s) := onCommand_of_idle_or_failed hp (writeChannel idx v)
    _ = .next (assign (bufWrite s.gs ⟨idx.toNat, hi⟩ v) s) := congrArg _ (writeChannel_of_lt hi v s)

theorem exec_update_eq_beginUpdate : exec .update s = .next (beginUpdate s) :=
  onCommand_of_idle_or_failed hp beginUpdate

end

/-- Settles O10: the assignment writes one register of the buffer. -/
theorem setChannelStoresTheWholeValue : Obligations.SetChannelStoresTheWholeValue := by
  unfold Obligations.SetChannelStoresTheWholeValue
  intro s idx val hp hi
  have hi : idx.toNat < 16 := Nat.lt_succ_of_le hi
  exact ⟨_, exec_setChannel_eq_assign hp hi val, fun i => getElem_bufWrite s.gs ⟨idx.toNat, hi⟩ i val, rfl⟩

/-- Settles O12: the assignment fills the buffer. -/
theorem setAllStoresInEveryRegister : Obligations.SetAllStoresInEveryRegister := by
  unfold Obligations.SetAllStoresInEveryRegister
  intro s val hp
  exact ⟨_, exec_setAll_eq_assign hp val, getElem_bufFill val, rfl⟩

/-- Settles O13: `CLEAR` is `SET_ALL 0`. -/
theorem clearZeroesEveryRegister : Obligations.ClearZeroesEveryRegister := by
  unfold Obligations.ClearZeroesEveryRegister
  intro s hp
  rw [clearIsSetAllZero s]
  exact setAllStoresInEveryRegister s 0 hp

theorem ph_tr_of_setter_frame {s t : State}
    (h : t = { s with gs := t.gs, rsp := .ok, responses := s.responses ++ [.ok] }) :
    t.ph = s.ph ∧ t.tr = s.tr :=
  ⟨by rw [h], by rw [h]⟩

/-- Settles O15: O12 and twice O10, each frame keeping the phase that the next setter needs. -/
theorem settersComposeAsAssignments : Obligations.SettersComposeAsAssignments := by
  unfold Obligations.SettersComposeAsAssignments
  intro s v w x idx hp hi
  obtain ⟨a, ha, hags, hframe⟩ := setAllStoresInEveryRegister s v hp
  obtain ⟨haph, hatr⟩ := ph_tr_of_setter_frame hframe
  obtain ⟨b, hb, hbgs, hframe⟩ := setChannelStoresTheWholeValue a idx w (haph ▸ hp) hi
  obtain ⟨hbph, hbtr⟩ := ph_tr_of_setter_frame hframe
  obtain ⟨c, hc, hcgs, hframe⟩ := setChannelStoresTheWholeValue b idx x (hbph ▸ haph ▸ hp) hi
  obtain ⟨hcph, hctr⟩ := ph_tr_of_setter_frame hframe
  have hbval (i : Fin 16) : b.gs[i] = if i.val = idx.toNat then w else v := by rw [hbgs, hags]
  have hcval (i : Fin 16) : c.gs[i] = if i.val = idx.toNat then x else v := by
    rw [hcgs, hbval]
    split <;> rfl
  exact ⟨a, b, c, ha, hb, hc, hbval, hcval, hbtr.trans hatr, hctr.trans (hbtr.trans hatr),
    hcph.trans (hbph.trans haph)⟩

/-! ### `FAILED` beside `IDLE` -/

/-- The registers after a setter depend on the registers before it only, in `IDLE` and in `FAILED` alike. -/
theorem exec_setter_eq_assign {i : Instr}
    (hi : i = .clear ∨ (∃ v, i = .setAll v) ∨ ∃ idx v, i = .setChannel idx v ∧ idx.toNat ≤ 15) :
    ∃ f : Buffer → Buffer, ∀ s : State, s.ph = .idle ∨ s.ph = .failed →
      exec i s = .next (assign (f s.gs) s) := by
  obtain rfl | ⟨v, rfl⟩ | ⟨idx, v, rfl, hidx⟩ := hi
  · exact ⟨fun _ => bufFill 0, fun s hp => (clearIsSetAllZero s).trans (exec_setAll_eq_assign hp 0)⟩
  · exact ⟨fun _ => bufFill v, fun s hp => exec_setAll_eq_assign hp v⟩
  · have hidx : idx.toNat < 16 := Nat.lt_succ_of_le hidx
    exact ⟨fun gs => bufWrite gs ⟨idx.toNat, hidx⟩ v, fun s hp => exec_setChannel_eq_assign hp hidx v⟩

/-- Settles O18: the same assignment in both phases, and `UPDATE` overwrites the phase it starts from. -/
theorem failedAdmitsWhatIdleAdmits : Obligations.FailedAdmitsWhatIdleAdmits := by
  unfold Obligations.FailedAdmitsWhatIdleAdmits
  intro s i hp
  have hupdate : exec .update s = .next (beginUpdate s) := exec_update_eq_beginUpdate (.inr hp)
  have hidle : exec .update { s with ph := .idle } = .next (beginUpdate s) :=
    exec_update_eq_beginUpdate (s := { s with ph := .idle }) (.inl rfl)
  refine ⟨fun hi => ?_, hupdate.trans hidle.symm, beginUpdate s, hupdate, nextWrite_blanking rfl⟩
  obtain ⟨f, hf⟩ := exec_setter_eq_assign hi
  exact ⟨_, _, hf s (.inr hp), hf { s with ph := .idle } (.inl rfl), hp, rfl⟩

end Sys2Proof.Machine
end

section
/-! PROOFS. The writes of `UPDATE` and the table of its events: the closed form of R151 iteration by iteration, the loops
of R140 as that table, and the totals of R144. -/

namespace Sys2Proof.Machine

/-! ### The closed form, by the part of the operation (R151) -/

/-- Events 1 to 960 are the shift iterations, five writes each. -/
theorem updateEvent_shift (gs : Buffer) {k j : Nat} (hk : k < 192) (hj : j < 5) :
    some (updateEvent gs (1 + (5 * k + j))) =
      (shiftIteration gs (Fin.ofNat 16 (15 - k / 12)) (11 - k % 12))[j]? := by
  have hle : 1 + (5 * k + j) ≤ 960 := by omega
  have hdiv : (5 * k + j) / 5 = k := by omega
  have hmod : (5 * k + j) % 5 = j := by omega
  rw [updateEvent, if_neg (by omega), if_pos hle, Nat.add_sub_cancel_left, hdiv, hmod]
  interval_cases j <;> rfl

/-- Events 961 to 12672 are the pad iterations, three writes each. -/
theorem updateEvent_pad (gs : Buffer) {k j : Nat} (hk : k < 3904) (hj : j < 3) :
    some (updateEvent gs (961 + (3 * k + j))) = padIteration[j]? := by
  have hle : 961 + (3 * k + j) ≤ 12672 := by omega
  have hmod : (3 * k + j) % 3 = j := by omega
  rw [updateEvent, if_neg (by omega), if_neg (by omega), if_pos hle, Nat.add_sub_cancel_left, hmod]
  interval_cases j <;> rfl

/-- Events 12673 to 12675 are the commit phase. -/
theorem updateEvent_commit (gs : Buffer) {j : Nat} (hj : j < 3) :
    some (updateEvent gs (12673 + j)) = commitWrites[j]? := by
  interval_cases j <;> rfl

/-- Before the commit phase blank is never driven high and latch is never written (R146, R151). -/
theorem updateEvent_no_commit (gs : Buffer) {n : Nat} (hn : n ≤ 12672) :
    updateEvent gs n ≠ (.blank, .high) ∧ (updateEvent gs n).1 ≠ .latch := by
  unfold updateEvent
  rw [if_pos hn]
  repeat' split
  all_goals exact ⟨by simp, by simp⟩

/-! ### The loops (R140) -/

theorem map_range_eq_of_getElem? {α : Type} {f : Nat → α} (l : List α)
    (h : ∀ j < l.length, some (f j) = l[j]?) : (List.range l.length).map f = l := by
  refine List.ext_getElem (by simp) fun j _ hj => ?_
  rw [List.getElem_map, List.getElem_range]
  exact Option.some.inj ((h j hj).trans (List.getElem?_eq_getElem hj))

/-- Numbered writes that repeat lists of `n` writes are those lists in a row. -/
theorem map_range_mul_eq_flatMap {α : Type} {f : Nat → α} {m n : Nat} (l : Nat → List α)
    (hlen : ∀ k, (l k).length = n) (h : ∀ k < m, ∀ j < n, some (f (n * k + j)) = (l k)[j]?) :
    (List.range (m * n)).map f = (List.range m).flatMap l := by
  rw [range_mul_eq_flatMap, List.map_flatMap]
  refine List.flatMap_congr fun k hk => ?_
  rw [List.map_map, ← hlen k]
  refine map_range_eq_of_getElem? (l k) fun j hj => ?_
  rw [Function.comp_apply, hlen, Nat.mul_comm]
  exact h k (List.mem_range.mp hk) j (hlen k ▸ hj)

theorem shiftWrites_eq_flatMap_range (gs : Buffer) :
    shiftWrites gs =
      (List.range 192).flatMap fun k => shiftIteration gs (Fin.ofNat 16 (15 - k / 12)) (11 - k % 12) := by
  rw [shiftWrites_eq_flatMap_shiftOrder, shiftOrder_eq_map_range, List.flatMap_map]

theorem padWrites_eq_flatMap_range : padWrites = (List.range 3904).flatMap fun _ => padIteration := by
  rw [padWrites, Config.PAD_PULSES, List.flatMap_def, List.map_const', List.length_range]

/-- Settles O52: the table is cut where the loops end, and each part is its iterations. -/
theorem updateWritesAreTheTable : Obligations.UpdateWritesAreTheTable := by
  unfold Obligations.UpdateWritesAreTheTable
  intro gs
  have hshift : (List.range (192 * 5)).map (fun i => updateEvent gs (1 + i)) = shiftWrites gs := by
    rw [shiftWrites_eq_flatMap_range]
    exact map_range_mul_eq_flatMap _ (fun _ => rfl) fun k hk j hj => updateEvent_shift gs hk hj
  have hpad : (List.range (3904 * 3)).map (fun i => updateEvent gs (961 + i)) = padWrites := by
    rw [padWrites_eq_flatMap_range]
    exact map_range_mul_eq_flatMap _ (fun _ => rfl) fun k hk j hj => updateEvent_pad gs hk hj
  have hcommit : (List.range 3).map (fun i => updateEvent gs (12673 + i)) = commitWrites :=
    map_range_eq_of_getElem? commitWrites fun j hj => updateEvent_commit gs hj
  have hsplit : List.range 12676 = List.range 1 ++ ((List.range (192 * 5)).map (1 + ·) ++
      ((List.range (3904 * 3)).map (961 + ·) ++ (List.range 3).map (12673 + ·))) := by
    rw [show 12676 = 1 + 192 * 5 + 3904 * 3 + 3 from rfl]
    simp only [List.range_add, List.append_assoc]
  simp only [hsplit, List.map_append, List.map_map, Function.comp_def, hshift, hpad, hcommit]
  rfl

theorem length_updateWrites (gs : Buffer) : (updateWrites gs).length = 12676 := by
  rw [updateWritesAreTheTable gs, List.length_map, List.length_range]

/-! ### The totals (R144) -/

theorem countP_flatMap_range {α : Type} {p : α → Bool} {l : Nat → List α} {c : Nat} (m : Nat)
    (h : ∀ k, (l k).countP p = c) : ((List.range m).flatMap l).countP p = m * c := by
  simp [List.countP_flatMap, Function.comp_def, h]

/-- What does not read the level of data is counted by the numbers of the iterations. -/
theorem countP_updateWrites (gs : Buffer) {p : Pin × Level → Bool}
    (hp : p (.data, .high) = p (.data, .low)) :
    (updateWrites gs).countP p = [(.blank, .low)].countP p + 192 * (shiftIteration (bufFill 0) 0 0).countP p +
      3904 * padIteration.countP p + commitWrites.countP p := by
  have hiter (c : Fin 16) (b : Nat) :
      (shiftIteration gs c b).countP p = (shiftIteration (bufFill 0) 0 0).countP p := by
    have hlevel (x : Bool) : p (.data, lvl x) = p (.data, .low) := by cases x <;> simp [lvl, hp]
    simp only [shiftIteration, List.countP_cons, hlevel]
  have hshift : (shiftWrites gs).countP p = 192 * (shiftIteration (bufFill 0) 0 0).countP p := by
    rw [shiftWrites_eq_flatMap_range]
    exact countP_flatMap_range 192 fun _ => hiter _ _
  have hpad : padWrites.countP p = 3904 * padIteration.countP p := by
    rw [padWrites_eq_flatMap_range]
    exact countP_flatMap_range 3904 fun _ => rfl
  rw [updateWrites, ← List.singleton_append, List.countP_append, List.countP_append, List.countP_append,
    hshift, hpad]
  omega

/-- Settles O53: each total is a count that does not read the level of data. -/
theorem updateTotals : Obligations.UpdateTotals := by
  unfold Obligations.UpdateTotals
  intro gs
  have hcount (w : Pin × Level) (hw : w.1 ≠ .data) :
      (updateWrites gs).count w = [(.blank, .low)].count w + 192 * (shiftIteration (bufFill 0) 0 0).count w +
        3904 * padIteration.count w + commitWrites.count w := by
    obtain ⟨p, l⟩ := w
    exact countP_updateWrites gs (by cases p <;> simp_all)
  refine ⟨length_updateWrites gs, ?_, ?_, ?_, ?_, ?_, ?_, ?_, ?_, ?_⟩
  · rw [← List.countP_eq_length_filter, countP_updateWrites gs rfl]
    decide
  all_goals
    rw [hcount _ (by decide)]
    decide

end Sys2Proof.Machine
end

section
/-! PROOFS. The position of the sequencer as the number of its next write in the table of R151 (R178), and how the number
moves. -/

namespace Sys2Proof.Machine

/-! ### The write a position asks for, as an entry of its iteration (R165 to R173) -/

theorem nextWrite_of_shift {s : State} {c : Fin 16} (hp : s.ph = .transferring) (hc : s.ch.toNat = c.val)
    (hbit : s.bit.toNat ≤ 11) : nextWrite s = (shiftIteration s.gs c s.bit.toNat)[s.sub.toNat]? := by
  rw [nextWrite, nextPinOp_of_shift hp hc, nextShift, if_pos hbit]
  generalize s.sub.toNat = j
  match j with
  | 0 | 1 | 2 | 3 | 4 | _ + 5 => rfl

/-- The number of a write in its pad iteration: `SUB` 0, 3 and 4 are the three writes (R143, R178). -/
def padOffset (sub : BitVec 3) : Nat := if sub = 0 then 0 else sub.toNat - 2

theorem nextWrite_of_pad {s : State} (hp : s.ph = .transferring) (hc : s.ch = -1)
    (hsub : s.sub = 0 ∨ s.sub = 3 ∨ s.sub = 4) : nextWrite s = padIteration[padOffset s.sub]? := by
  rw [nextWrite, nextPinOp_of_pad hp hc, nextPad]
  rcases hsub with h | h | h <;> rw [h] <;> rfl

theorem nextWrite_of_committing {s : State} (hp : s.ph = .committing) :
    nextWrite s = commitWrites[s.sub.toNat]? := by
  rw [nextWrite, nextPinOp_of_committing hp, nextCommitting]
  generalize s.sub.toNat = j
  match j with
  | 0 | 1 | 2 | _ + 3 => rfl

theorem padOffset_zero : padOffset 0 = 0 := rfl

theorem padOffset_three : padOffset 3 = 1 := rfl

theorem padOffset_four : padOffset 4 = 2 := rfl

theorem padOffset_lt_three {sub : BitVec 3} (h : sub = 0 ∨ sub = 3 ∨ sub = 4) : padOffset sub < 3 := by
  rcases h with rfl | rfl | rfl <;> decide

/-! ### The position as an event number (R178) -/

/-- The number in R151's table of the write a position of `UPDATE` asks for. -/
def eventNumber (s : State) : Nat :=
  match s.ph with
  | .transferring =>
    if s.ch.toNat < 16 then 1 + (5 * s.pulse.toNat + s.sub.toNat)
    else 961 + (3 * (s.pulse.toNat - 192) + padOffset s.sub)
  | .committing => 12673 + s.sub.toNat
  | .uninit | .constructing | .idle | .blanking | .failed | .halted => 0

theorem eventNumber_of_shift {s : State} (hp : s.ph = .transferring) (hc : s.ch.toNat < 16) :
    eventNumber s = 1 + (5 * s.pulse.toNat + s.sub.toNat) := by
  simp only [eventNumber, hp, if_pos hc]

theorem eventNumber_of_pad {s : State} (hp : s.ph = .transferring) (hc : ¬ s.ch.toNat < 16) :
    eventNumber s = 961 + (3 * (s.pulse.toNat - 192) + padOffset s.sub) := by
  simp only [eventNumber, hp, if_neg hc]

theorem eventNumber_of_committing {s : State} (hp : s.ph = .committing) :
    eventNumber s = 12673 + s.sub.toNat := by
  simp only [eventNumber, hp]

theorem eventNumber_of_blanking {s : State} (hp : s.ph = .blanking) : eventNumber s = 0 := by
  simp only [eventNumber, hp]

/-- The three phases of `UPDATE` (R24). -/
def Updating (s : State) : Prop := s.ph = .blanking ∨ s.ph = .transferring ∨ s.ph = .committing

/-- At a legal position of `UPDATE` the next write is the event of its number (R151, R178). -/
theorem nextWrite_eq_updateEvent {s : State} (hpos : positionOk s = true) (hup : Updating s) :
    nextWrite s = some (updateEvent s.gs (eventNumber s)) := by
  rcases hup with hp | hp | hp
  · rw [eventNumber_of_blanking hp]
    exact nextWrite_blanking hp
  · by_cases hc : s.ch.toNat < 16
    · obtain ⟨hbit, hsub, hpulse⟩ := positionOk_shift hp hc hpos
      have hch : Fin.ofNat 16 (15 - s.pulse.toNat / 12) = ⟨s.ch.toNat, hc⟩ := by
        apply Fin.ext
        show (15 - s.pulse.toNat / 12) % 16 = s.ch.toNat
        omega
      have hbit' : 11 - s.pulse.toNat % 12 = s.bit.toNat := by omega
      rw [eventNumber_of_shift hp hc, updateEvent_shift s.gs (by omega) (by omega), hch, hbit']
      exact nextWrite_of_shift hp rfl hbit
    · obtain ⟨hch, -, hsub, hge, hle⟩ := positionOk_pad hp hc hpos
      rw [eventNumber_of_pad hp hc, updateEvent_pad s.gs (by omega) (padOffset_lt_three hsub)]
      exact nextWrite_of_pad hp hch hsub
  · obtain ⟨-, -, hsub, -⟩ := positionOk_committing hp hpos
    rw [eventNumber_of_committing hp, updateEvent_commit s.gs (by omega)]
    exact nextWrite_of_committing hp

/-- Settles O35: in each phase the number is the one R178 gives. -/
theorem positionNamesTheEventNumber : Obligations.PositionNamesTheEventNumber := by
  unfold Obligations.PositionNamesTheEventNumber
  intro s hpos
  refine ⟨fun hp => ?_, fun hp hc => ⟨?_, ?_⟩, fun hp hc => ?_, fun hp => ?_⟩
  · rw [nextWrite_eq_updateEvent hpos (.inl hp), eventNumber_of_blanking hp]
  · obtain ⟨hbit, -, hpulse⟩ := positionOk_shift hp (by omega) hpos
    omega
  · rw [nextWrite_eq_updateEvent hpos (.inr (.inl hp)), eventNumber_of_shift hp (by omega), Nat.add_assoc]
  · rw [nextWrite_eq_updateEvent hpos (.inr (.inl hp)), eventNumber_of_pad hp (by rw [hc]; decide), Nat.add_assoc]
    rfl
  · rw [nextWrite_eq_updateEvent hpos (.inr (.inr hp)), eventNumber_of_committing hp]

/-! ### The next number -/

/-- Where an iteration begins, `PULSE` alone gives the number; at 192 the two forms agree (R178). -/
theorem eventNumber_of_iteration_start {s : State} (hp : s.ph = .transferring) (hpos : positionOk s = true)
    (hsub : s.sub = 0) :
    eventNumber s =
      if s.pulse.toNat ≤ 192 then 1 + 5 * s.pulse.toNat else 961 + 3 * (s.pulse.toNat - 192) := by
  have hsub' : s.sub.toNat = 0 := by rw [hsub]; rfl
  by_cases hc : s.ch.toNat < 16
  · obtain ⟨hbit, -, hpulse⟩ := positionOk_shift hp hc hpos
    rw [eventNumber_of_shift hp hc, if_pos (by omega), hsub', Nat.add_zero]
  · obtain ⟨-, -, -, hge, -⟩ := positionOk_pad hp hc hpos
    rw [eventNumber_of_pad hp hc, hsub, padOffset_zero]
    split <;> omega

/-- `UPDATE` is still running, at the write after that of `s`. -/
def AtNextEvent (s t : State) : Prop := Updating t ∧ eventNumber t = eventNumber s + 1

section
variable {s : State} (hpos : positionOk s = true)
include hpos

theorem atNextEvent_advanceShift (hp : s.ph = .transferring) (hc : s.ch.toNat < 16) :
    AtNextEvent s (advanceShift s) := by
  obtain ⟨hbit, hsub, hpulse⟩ := positionOk_shift hp hc hpos
  rw [AtNextEvent, eventNumber_of_shift hp hc]
  by_cases h : s.sub = 4
  · rw [advanceShift_of_last h]
    obtain ⟨hph, hpos'⟩ := positionOk_endIteration_nextBit hp hc hbit hpulse
    have hsucc : (endIteration (nextBit s)).pulse.toNat = s.pulse.toNat + 1 := by
      rw [endIteration_pulse, nextBit_pulse]
      bv_omega
    have hsub' : s.sub.toNat = 4 := by rw [h]; rfl
    refine ⟨.inr (.inl hph), ?_⟩
    rw [eventNumber_of_iteration_start hph hpos' rfl, hsucc, if_pos (by omega)]
    omega
  · have hsucc : (s.sub + 1).toNat = s.sub.toNat + 1 := by bv_omega
    rw [advanceShift_of_not_last h]
    refine ⟨.inr (.inl hp), ?_⟩
    rw [eventNumber_of_shift (s := { s with sub := s.sub + 1 }) hp hc, hsucc]
    rfl

theorem atNextEvent_advancePad (hp : s.ph = .transferring) (hc : ¬ s.ch.toNat < 16) :
    AtNextEvent s (advancePad s) := by
  obtain ⟨hch, hbit, hsub, hge, hle⟩ := positionOk_pad hp hc hpos
  have hmoved (x : BitVec 3) :
      eventNumber { s with sub := x } = 961 + (3 * (s.pulse.toNat - 192) + padOffset x) :=
    eventNumber_of_pad hp hc
  rw [AtNextEvent, eventNumber_of_pad hp hc]
  rcases hsub with h | h | h
  · rw [advancePad_of_first h, h, padOffset_zero]
    exact ⟨.inr (.inl hp), by rw [hmoved, padOffset_three]; omega⟩
  · rw [advancePad_of_three h, h, padOffset_three]
    exact ⟨.inr (.inl hp), by rw [hmoved, padOffset_four]; omega⟩
  · rw [advancePad_of_last h, h, padOffset_four]
    by_cases hend : s.pulse + 1 = 4096
    · have hpulse : s.pulse.toNat = 4095 := by bv_omega
      rw [endIteration_of_last hend, hpulse]
      exact ⟨.inr (.inr rfl), rfl⟩
    · have hsucc : (s.pulse + 1).toNat = s.pulse.toNat + 1 := by bv_omega
      rw [endIteration_of_not_last hend]
      refine ⟨.inr (.inl hp), ?_⟩
      rw [eventNumber_of_pad (s := { s with pulse := s.pulse + 1, sub := 0 }) hp hc, hsucc,
        padOffset_zero]
      omega

theorem atNextEvent_advanceCommitting (hp : s.ph = .committing) (hlast : eventNumber s ≠ 12675) :
    AtNextEvent s (advanceCommitting s) := by
  obtain ⟨-, -, hsub, -⟩ := positionOk_committing hp hpos
  rw [eventNumber_of_committing hp] at hlast
  have hne : s.sub ≠ 2 := fun h => hlast (by rw [h]; rfl)
  have hsucc : (s.sub + 1).toNat = s.sub.toNat + 1 := by bv_omega
  rw [AtNextEvent, eventNumber_of_committing hp, advanceCommitting_of_not_last hne]
  refine ⟨.inr (.inr hp), ?_⟩
  rw [eventNumber_of_committing (s := { s with sub := s.sub + 1 }) hp, hsucc, Nat.add_assoc]

/-- On `Ok` the position goes to the next number of the table, up to the last (R164 to R173, R178). -/
theorem atNextEvent_advanceOk (hup : Updating s) (hlast : eventNumber s ≠ 12675) :
    AtNextEvent s (advanceOk s) := by
  rcases hup with hp | hp | hp
  · rw [advanceOk_of_blanking hp, AtNextEvent, eventNumber_of_blanking hp]
    exact ⟨.inr (.inl rfl), rfl⟩
  · by_cases hc : s.ch.toNat < 16
    · rw [advanceOk_of_shift hp (cursorChannel_eq_some hc)]
      exact atNextEvent_advanceShift hpos hp hc
    · rw [advanceOk_of_pad hp (cursorChannel_eq_none (Nat.le_of_not_lt hc))]
      exact atNextEvent_advancePad hpos hp hc
  · rw [advanceOk_of_committing hp]
    exact atNextEvent_advanceCommitting hpos hp hlast

/-- The last number is that of the latch-low write (R145, R173). -/
theorem last_position_of_eventNumber (hup : Updating s) (hlast : eventNumber s = 12675) :
    s.ph = .committing ∧ s.sub = 2 := by
  rcases hup with hp | hp | hp
  · rw [eventNumber_of_blanking hp] at hlast
    omega
  · exfalso
    by_cases hc : s.ch.toNat < 16
    · obtain ⟨hbit, hsub, hpulse⟩ := positionOk_shift hp hc hpos
      rw [eventNumber_of_shift hp hc] at hlast
      omega
    · obtain ⟨-, -, hsub, -, hle⟩ := positionOk_pad hp hc hpos
      have hoffset := padOffset_lt_three hsub
      rw [eventNumber_of_pad hp hc] at hlast
      omega
  · rw [eventNumber_of_committing hp] at hlast
    exact ⟨hp, BitVec.eq_of_toNat_eq (Nat.add_left_cancel (n := 12673) hlast)⟩

end

end Sys2Proof.Machine
end

section
/-! PROOFS. The run of `UPDATE`: step by step the writes of R140's list, up to its end or to the first error (R140, R146,
R151, R152, R174, R176). -/

namespace Sys2Proof.Machine

/-! ### States that differ in the phase and the position only -/

theorem MovesPositionOnly.trans {s t u : State} (h₁ : MovesPositionOnly s t) (h₂ : MovesPositionOnly t u) :
    MovesPositionOnly s u := by
  obtain ⟨_, _, _, _, _, rfl⟩ := h₁
  obtain ⟨_, _, _, _, _, rfl⟩ := h₂
  exact ⟨_, _, _, _, _, rfl⟩

theorem MovesPositionOnly.rst {s t : State} (h : MovesPositionOnly s t) : t.rst = s.rst := by
  obtain ⟨_, _, _, _, _, rfl⟩ := h
  rfl

theorem MovesPositionOnly.ret {s t : State} (h : MovesPositionOnly s t) : t.ret = s.ret := by
  obtain ⟨_, _, _, _, _, rfl⟩ := h
  rfl

/-- No pin write reads the phase or the position (R100). -/
theorem MovesPositionOnly.pinWrite {s t : State} (h : MovesPositionOnly s t) (p : Pin) (l : Level) :
    MovesPositionOnly (pinWrite p l s) (pinWrite p l t) := by
  obtain ⟨_, _, _, _, _, rfl⟩ := h
  exact ⟨_, _, _, _, _, rfl⟩

/-- `UPDATE` has completed, its writes having left `s` (R152, R173). -/
def completedUpdate (s : State) : State :=
  respond .ok { s with ph := .idle, ch := -1, bit := 11, sub := 0, pulse := 4096 }

theorem finishUpdate_eq_completedUpdate {s t : State} (h : MovesPositionOnly s t) (hch : t.ch = -1)
    (hbit : t.bit = 11) (hpulse : t.pulse = 4096) : finishUpdate t = completedUpdate s := by
  obtain ⟨_, _, _, _, _, rfl⟩ := h
  cases hch
  cases hbit
  cases hpulse
  rfl

/-- `UPDATE` has failed with the error `e` at the position of `v`, its writes having left `s` (R174). -/
def failedUpdate (e : PinErr) (v s : State) : State :=
  respond (.pinErr e) { s with ph := .failed, ch := v.ch, bit := v.bit, sub := v.sub, pulse := v.pulse }

theorem raiseExn_eq_failedUpdate {s t : State} (h : MovesPositionOnly s t) (hp : t.ph ≠ .constructing) (e : PinErr) :
    raiseExn (.pinWriteFailed e) t = failedUpdate e t s := by
  rw [raiseExn_pinWriteFailed_update hp]
  obtain ⟨_, _, _, _, _, rfl⟩ := h
  rfl

/-! ### One step of `UPDATE` -/

/-- `UPDATE` is about to make write `n`, the writes before it having left `u`, and the block is in `v`. -/
structure AtEvent (n : Nat) (u v : State) : Prop where
  moves : MovesPositionOnly u v
  holds : inv v = true
  updating : Updating v
  number : eventNumber v = n

theorem Updating.ph_ne_constructing {s : State} (h : Updating s) : s.ph ≠ .constructing := by
  rcases h with hp | hp | hp <;> simp [hp]

theorem positionOk_of_inv {s : State} (h : inv s = true) : positionOk s = true := by
  rw [inv, Bool.and_eq_true] at h
  exact h.1

theorem takeSample_of_rst_nil {s : State} (hr : s.rst = []) : takeSample s = s := by
  cases s
  cases hr
  rfl

/-- The acceptance of `UPDATE` is the position of write 0 (R163). -/
theorem atEvent_beginUpdate (s : State) : AtEvent 0 s (beginUpdate s) where
  moves := ⟨_, _, _, _, _, rfl⟩
  holds := inv_of_unconstrained (.inr (.inl rfl))
  updating := .inl rfl
  number := rfl

section
variable {n : Nat} {u v : State} {w : Pin × Level} (h : AtEvent n u v) (hw : updateEvent u.gs n = w)
include h

theorem AtEvent.written_eq (hr : u.rst = []) (p : Pin) (l : Level) : written v p l = pinWrite p l v :=
  congrArg (pinWrite p l) (takeSample_of_rst_nil (h.moves.rst.trans hr))

include hw

theorem AtEvent.nextWrite_eq : nextWrite v = some w := by
  rw [nextWrite_eq_updateEvent (positionOk_of_inv h.holds) h.updating, h.number, h.moves.gs, hw]

variable (hr : u.rst = [])
include hr

theorem AtEvent.step_eq : step v = .next (advance (pinWrite w.1 w.2 v)) := by
  rw [step_of_nextWrite (by simp [rstHigh, h.moves.rst, hr]) (h.nextWrite_eq hw), ← h.written_eq hr]

theorem AtEvent.inv_advance_pinWrite : inv (advance (pinWrite w.1 w.2 v)) = true := by
  rw [← h.written_eq hr]
  exact inv_advance h.holds (h.nextWrite_eq hw)

/-- A write answered `Ok`, before the last, leads to the next write. -/
theorem AtEvent.step_ok (hn : n ≠ 12675) (hok : (pinWrite w.1 w.2 u).ret = .ok) :
    ∃ v', step v = .next v' ∧ AtEvent (n + 1) (pinWrite w.1 w.2 u) v' := by
  have hmoves := h.moves.pinWrite w.1 w.2
  have hstep := h.step_eq hw hr
  have hinv := h.inv_advance_pinWrite hw hr
  rw [advance_of_ok (hmoves.ret.trans hok)] at hstep hinv
  have hpos := positionOk_of_inv h.holds
  obtain ⟨hup, hnumber⟩ := atNextEvent_advanceOk (s := pinWrite w.1 w.2 v) hpos h.updating
    (fun hlast => hn (h.number.symm.trans hlast))
  refine ⟨_, hstep, ?_, hinv, hup, hnumber.trans (congrArg (· + 1) h.number)⟩
  obtain ⟨hnew, -⟩ | hend | hmove := advanceOk_cases (pinWrite w.1 w.2 v)
  · exact absurd hnew h.updating.ph_ne_constructing
  · simp [Updating, hend] at hup
  · exact hmoves.trans hmove

/-- The last write answered `Ok` completes `UPDATE`, on the idle lines (R152, R173). -/
theorem AtEvent.step_last (hn : n = 12675) (hok : (pinWrite w.1 w.2 u).ret = .ok) :
    step v = .next (completedUpdate (pinWrite w.1 w.2 u)) ∧ (pinWrite w.1 w.2 u).pin = idleLines := by
  have hmoves := h.moves.pinWrite w.1 w.2
  have hpos := positionOk_of_inv h.holds
  obtain ⟨hp, hsub⟩ := last_position_of_eventNumber hpos h.updating (h.number.trans hn)
  obtain ⟨hch, hbit, -, hpulse⟩ := positionOk_committing hp hpos
  have hadvance : advance (pinWrite w.1 w.2 v) = completedUpdate (pinWrite w.1 w.2 u) :=
    calc advance (pinWrite w.1 w.2 v)
        = advanceOk (pinWrite w.1 w.2 v) := advance_of_ok (hmoves.ret.trans hok)
      _ = advanceCommitting (pinWrite w.1 w.2 v) := advanceOk_of_committing hp
      _ = finishUpdate (pinWrite w.1 w.2 v) := advanceCommitting_of_last hsub
      _ = completedUpdate (pinWrite w.1 w.2 u) := finishUpdate_eq_completedUpdate hmoves hch hbit hpulse
  have hinv := h.inv_advance_pinWrite hw hr
  rw [hadvance] at hinv
  exact ⟨(h.step_eq hw hr).trans (congrArg _ hadvance), (inv_idle_iff (s := completedUpdate _) rfl).mp hinv⟩

/-- A failed write ends `UPDATE` in `FAILED`, at the position that selected it (R174, R196). -/
theorem AtEvent.step_err {e : PinErr} (herr : (pinWrite w.1 w.2 u).ret = .err e) :
    step v = .next (failedUpdate e v (pinWrite w.1 w.2 u)) := by
  have hmoves := h.moves.pinWrite w.1 w.2
  rw [h.step_eq hw hr, advance_of_err (hmoves.ret.trans herr),
    raiseExn_eq_failedUpdate hmoves h.updating.ph_ne_constructing]
  rfl

end

/-! ### The run of `UPDATE` -/

theorem eq_frame_of_runWrites {ws : List (Pin × Level)} {o : Option PinErr} {s u : State}
    (h : runWrites ws s = (o, u)) : u = { s with tr := u.tr, pin := u.pin, env := u.env, ret := u.ret } := by
  obtain rfl : (runWrites ws s).2 = u := by rw [h]
  exact congrArg (fun t : State => { t with
    tr := (runWrites ws s).2.tr, pin := (runWrites ws s).2.pin,
    env := (runWrites ws s).2.env, ret := (runWrites ws s).2.ret }) (runWrites_frame ws s)

section
variable {s t : State} {f : Nat} (hr : s.rst = [])
include hr

/-- While the writes of `UPDATE` succeed, the steps after its acceptance are those writes (R160, R163). -/
theorem run_beginUpdate_of_ok (hf : f ≤ 12675)
    (h : runWrites ((List.range f).map (updateEvent s.gs)) s = (none, t)) :
    ∃ v, run f (beginUpdate s) = .next v ∧ AtEvent f t v := by
  induction f generalizing t with
  | zero =>
    cases h
    exact ⟨_, rfl, atEvent_beginUpdate s⟩
  | succ f ih =>
    rw [List.range_succ, List.map_append, List.map_singleton] at h
    obtain ⟨u, hu, hok, rfl⟩ := runWrites_concat_eq_ok h
    obtain ⟨v, hrun, hv⟩ := ih (Nat.le_of_succ_le hf) hu
    have hframe := eq_frame_of_runWrites hu
    obtain ⟨v', hstep, hv'⟩ := hv.step_ok (by rw [hframe]) (by rw [hframe]; exact hr) (by omega) hok
    exact ⟨v', by rw [run_add hrun, run_succ hstep, run_zero], hv'⟩

/-- The run of an `UPDATE` whose writes all succeed (R140, R152). -/
theorem run_beginUpdate_completes (h : runWrites (updateWrites s.gs) s = (none, t)) :
    run 12676 (beginUpdate s) = .next (completedUpdate t) ∧ t.pin = idleLines ∧ t.ret = .ok := by
  rw [updateWritesAreTheTable s.gs, List.range_succ, List.map_append, List.map_singleton] at h
  obtain ⟨u, hu, hok, rfl⟩ := runWrites_concat_eq_ok h
  obtain ⟨v, hrun, hv⟩ := run_beginUpdate_of_ok hr (Nat.le_refl 12675) hu
  have hframe := eq_frame_of_runWrites hu
  obtain ⟨hstep, hpin⟩ := hv.step_last (by rw [hframe]) (by rw [hframe]; exact hr) rfl hok
  exact ⟨by rw [run_add hrun 1, run_succ hstep, run_zero], hpin, hok⟩

/-- The run of an `UPDATE` whose write `f` is the first to fail (R146, R174). -/
theorem run_beginUpdate_fails {w : Pin × Level} {e : PinErr} (hf : f < 12676) (hw : updateEvent s.gs f = w)
    (h : runWrites ((List.range f).map (updateEvent s.gs)) s = (none, t))
    (herr : (pinWrite w.1 w.2 t).ret = .err e) :
    ∃ v, run f (beginUpdate s) = .next v ∧ nextWrite v = some w ∧
      run (f + 1) (beginUpdate s) = .next (failedUpdate e v (pinWrite w.1 w.2 t)) := by
  obtain ⟨v, hrun, hv⟩ := run_beginUpdate_of_ok hr (Nat.le_of_lt_succ hf) h
  have hframe := eq_frame_of_runWrites h
  have hw' : updateEvent t.gs f = w := by rw [hframe]; exact hw
  have hstep := hv.step_err hw' (by rw [hframe]; exact hr) herr
  exact ⟨v, hrun, hv.nextWrite_eq hw', by rw [run_add hrun, run_succ hstep, run_zero]⟩

end

/-- Settles O58: all the writes succeed, and what they leave is the table's events on the trace. -/
theorem updateRunsToCompletion : Obligations.UpdateRunsToCompletion := by
  unfold Obligations.UpdateRunsToCompletion
  intro s rest hp hr henv
  obtain ⟨t, hrun, htenv, htr, -⟩ :=
    runWrites_of_replicate_ok (ws := updateWrites s.gs) (by rw [length_updateWrites, henv])
  obtain ⟨hend, hpin, hret⟩ := run_beginUpdate_completes hr hrun
  refine ⟨beginUpdate s, completedUpdate t, exec_update_eq_beginUpdate hp, hend, ?_⟩
  rw [eq_frame_of_runWrites hrun, htenv, htr, hpin, hret, updateWritesAreTheTable s.gs]
  rfl

/-- Settles O59: the writes before `f` succeed, and the step of write `f` ends the operation at its position. -/
theorem updateFailsAtTheFirstError : Obligations.UpdateFailsAtTheFirstError := by
  unfold Obligations.UpdateFailsAtTheFirstError
  intro s rest f e hp hr hf henv
  obtain ⟨u, hrun, huenv, htr, -⟩ :=
    runWrites_of_replicate_ok (ws := (List.range f).map (updateEvent s.gs))
      (by rw [List.length_map, List.length_range, henv])
  have herr : pinAnswer (updateEvent s.gs f).1 (updateEvent s.gs f).2 u = .err e := pinAnswer_cons huenv _ _
  obtain ⟨v, hv, hnext, hend⟩ := run_beginUpdate_fails hr hf rfl hrun herr
  have hframe := eq_frame_of_runWrites hrun
  refine ⟨beginUpdate s, v, _, exec_update_eq_beginUpdate hp, hv, hend, hnext, ?_, rfl, rfl, ?_, ?_, ?_,
    rfl, rfl, rfl, rfl, ?_⟩
  · simp [failedUpdate, htr, herr]
  · simp [failedUpdate, congrArg State.responses hframe]
  · simp [failedUpdate, herr]
  · exact (congrArg State.gs hframe :)
  · intro _ hle ev hev
    obtain ⟨w, hw, rfl⟩ := List.mem_map.mp hev
    obtain ⟨n, hn, rfl⟩ := List.mem_map.mp hw
    have hn := List.mem_range.mp hn
    obtain ⟨hblank, hlatch⟩ := updateEvent_no_commit s.gs (n := n) (by omega)
    exact ⟨fun h => hblank (Prod.ext h.1 h.2), hlatch⟩

/-! ### `UPDATE` as one operation (R176) -/

theorem operationUpdate_of_ok {s t : State} (h : runWrites (updateWrites s.gs) s = (none, t)) :
    operationUpdate s = respond .ok { t with ph := .idle } := by
  simp only [operationUpdate, h]

theorem operationUpdate_of_err {s t : State} {e : PinErr} (h : runWrites (updateWrites s.gs) s = (some e, t)) :
    operationUpdate s = respond (.pinErr e) { t with ph := .failed } := by
  simp only [operationUpdate, h]

/-- Settles O60: the writes of the operation all succeed or stop at a first error, and so do the steps. -/
theorem sequencerRefinesTheUpdate : Obligations.SequencerRefinesTheUpdate := by
  unfold Obligations.SequencerRefinesTheUpdate
  intro s hp hr
  cases hrun : runWrites (updateWrites s.gs) s with
  | mk o t =>
    cases o with
    | none =>
      obtain ⟨hend, -⟩ := run_beginUpdate_completes hr hrun
      refine ⟨12676, beginUpdate s, completedUpdate t, exec_update_eq_beginUpdate hp, by decide, Nat.le_refl _, hend,
        rfl, ?_⟩
      rw [operationUpdate_of_ok hrun]
      rfl
    | some e =>
      rw [operationUpdate_of_err hrun]
      rw [updateWritesAreTheTable s.gs] at hrun
      obtain ⟨f, w, u, hw, hu, herr, rfl⟩ := runWrites_eq_err hrun
      obtain ⟨hlen, hw⟩ := List.getElem?_eq_some_iff.mp hw
      rw [List.length_map, List.length_range] at hlen
      rw [List.getElem_map, List.getElem_range] at hw
      rw [← List.map_take, List.take_range, Nat.min_eq_left (Nat.le_of_lt hlen)] at hu
      obtain ⟨v, -, -, hend⟩ := run_beginUpdate_fails hr hlen hw hu herr
      exact ⟨f + 1, beginUpdate s, _, exec_update_eq_beginUpdate hp, Nat.succ_pos f, hlen, hend, rfl, rfl⟩

end Sys2Proof.Machine
end

section
/-! PROOFS. A ready block between operations (R150, R205). -/

namespace Sys2Proof.Machine

/-- Settles O21: a ready block with no word on the port takes the sample of `rst` and nothing else. -/
theorem readyBlockHoldsWithoutACommand : Obligations.ReadyBlockHoldsWithoutACommand := by
  unfold Obligations.ReadyBlockHoldsWithoutACommand
  intro s hp hr hcmd
  have hc : cmdReady s = true := by
    rcases hp with hp | hp | ⟨hp, -⟩ <;> simp [cmdReady, busy, phaseBusy, hp]
  have hd : s.ph = .uninit → s.direct = [] := by
    rcases hp with hp | hp | ⟨-, hd⟩ <;> simp_all
  simp [step, fetch_of_cmdReady hc hr hd, fetchCommand, hcmd, takeSample]

end Sys2Proof.Machine
end

section
/-! PROOFS. The only fault of a step from a legal position is that of `HALTED` (R177, R197). -/

namespace Sys2Proof.Machine

/-! ### Where a fault comes from -/

/-- An instruction faults in `HALTED` only (R197). -/
theorem halted_of_exec_eq_fault {i : Instr} {s : State} {f : Fault} (h : exec i s = .fault f) :
    f = .halted ∧ s.ph = .halted := by
  have command {admits : Phase → Bool} {effect : State → State} (h : onCommand admits effect s = .fault f) :
      f = .halted ∧ s.ph = .halted := by
    obtain ⟨hp, he⟩ | ⟨-, he⟩ | ⟨-, -, he⟩ | ⟨-, -, he⟩ := onCommand_cases admits effect s <;> rw [he] at h
    · exact ⟨(Host.Outcome.fault.inj h).symm, hp⟩
    all_goals cases h
  cases i with
  | new | setChannel | setAll | clear | update => exact command h
  | setLow | setHigh | pulse => cases h
  | setValue p v =>
    cases hv : levelOf v with
    | none => simp [exec_setValue_of_levelOf_none hv] at h
    | some l => simp [exec_setValue_of_levelOf_some hv] at h

theorem eq_fault_of_afterPinOp {o : Host.Outcome State Fault Refusal} {f : Fault}
    (h : afterPinOp o = .fault f) : o = .fault f := by
  cases o with
  | next => cases h
  | fault => exact h
  | refused => cases h

theorem ph_of_fetch_eq_halted {s : State} (h : fetch s = .halted) : s.ph = .halted := by
  unfold fetch fetchByPhase fetchBusy fetchUninit fetchCommand at h
  repeat' split at h
  all_goals cases h
  all_goals assumption

theorem nextWrite_of_fetch_eq_unreachable {s : State} (h : fetch s = .unreachable) :
    busy s = true ∧ nextWrite s = none := by
  unfold fetch fetchByPhase fetchBusy fetchUninit fetchCommand at h
  repeat' split at h
  all_goals cases h
  all_goals simp [busy, phaseBusy, nextWrite, *]

/-- A step faults in `HALTED`, or in a busy phase at a position that asks for no write (R177, R197). -/
theorem step_eq_fault_cases {s : State} {f : Fault} (h : step s = .fault f) :
    (f = .halted ∧ s.ph = .halted) ∨ (busy s = true ∧ nextWrite s = none) := by
  cases hf : fetch s <;> simp only [step, hf] at h
  case halted => exact .inl ⟨(Host.Outcome.fault.inj h).symm, ph_of_fetch_eq_halted hf⟩
  case unreachable => exact .inr (nextWrite_of_fetch_eq_unreachable hf)
  case sequencer i =>
    obtain ⟨hhalted, hp⟩ := halted_of_exec_eq_fault (eq_fault_of_afterPinOp h)
    exact .inl ⟨hhalted, hp⟩
  case command i | direct i =>
    obtain ⟨hhalted, hp⟩ := halted_of_exec_eq_fault h
    exact .inl ⟨hhalted, hp⟩
  case reset | illegal | notATransaction | hold => cases h

/-! ### A legal position -/

/-- In a busy phase a legal position asks for a write (R177). -/
theorem nextWrite_ne_none_of_positionOk {s : State} (hpos : positionOk s = true) (hb : busy s = true) :
    nextWrite s ≠ none := by
  have update (hup : Updating s) : nextWrite s ≠ none := by simp [nextWrite_eq_updateEvent hpos hup]
  rcases (busy_iff s).mp hb with hp | hp | hp | hp
  · have hsub : s.sub.toNat < newWrites.length := Nat.lt_succ_of_le (positionOk_constructing hp hpos)
    simp [nextWrite_of_constructing hp, hsub]
  · exact update (.inl hp)
  · exact update (.inr (.inl hp))
  · exact update (.inr (.inr hp))

/-- Settles O38: a legal position asks for a write, so that the other source of a fault is left out. -/
theorem legalPositionsMeetNoUnreachableOne : Obligations.LegalPositionsMeetNoUnreachableOne := by
  unfold Obligations.LegalPositionsMeetNoUnreachableOne
  intro s f hpos hstep
  rcases step_eq_fault_cases hstep with hhalted | ⟨hb, hnone⟩
  · exact hhalted
  · exact absurd hnone (nextWrite_ne_none_of_positionOk hpos hb)

end Sys2Proof.Machine
end

section
/-! PROOFS. The acceptance of `NEW` and of `UPDATE`, and the step of a busy phase (R160, R161, R163). -/

namespace Sys2Proof.Machine

/-- Settles O8: `NEW` is admitted, and its effect is its acceptance. -/
theorem newIsAccepted : Obligations.NewIsAccepted := by
  unfold Obligations.NewIsAccepted
  intro s hp
  exact exec_new_of_admitted hp

/-- Settles O9: `UPDATE` is admitted, and its effect is its acceptance. -/
theorem updateIsAccepted : Obligations.UpdateIsAccepted := by
  unfold Obligations.UpdateIsAccepted
  intro s hp
  exact exec_update_eq_beginUpdate hp

/-- Settles O23: the operation is one write, with which the step begins. -/
theorem stepRunsTheSequencersPinOperation : Obligations.StepRunsTheSequencersPinOperation := by
  unfold Obligations.StepRunsTheSequencersPinOperation
  intro s i hr hi
  obtain ⟨p, l, hw, hnext⟩ := nextWrite_of_nextPinOp hi
  exact ⟨busy_of_nextPinOp hi, written s p l, exec_of_writeOf hw _, step_of_nextWrite hr hnext⟩

end Sys2Proof.Machine
end

section
/-! PROOFS. The sequencer's steps, phase by phase: the write the position asks for, and what its answer does to the
position (R162, R164 to R174). -/

namespace Sys2Proof.Machine

/-! ### A step whose write is answered `Ok` -/

section
variable {s : State} {p : Pin} {l : Level} (hr : rstHigh s = false)
include hr

theorem step_of_ok (hw : nextWrite s = some (p, l)) (hok : (written s p l).ret = .ok) :
    step s = .next (advanceOk (written s p l)) := by
  rw [step_of_nextWrite hr hw, advance_of_ok hok]

theorem step_constructing_of_ok (hp : s.ph = .constructing) {k : BitVec 3} (hsub : s.sub = k)
    (hw : newWrites[k.toNat]? = some (p, l)) (hok : (written s p l).ret = .ok) :
    step s = .next (advanceConstructing (written s p l)) := by
  rw [step_of_ok hr (by rw [nextWrite_of_constructing hp, hsub, hw]) hok,
    advanceOk_of_constructing (s := written s p l) hp]

theorem step_shift_of_ok {c : Fin 16} (hp : s.ph = .transferring) (hc : s.ch.toNat = c.val)
    (hbit : s.bit.toNat ≤ 11) {k : BitVec 3} (hsub : s.sub = k)
    (hw : (shiftIteration s.gs c s.bit.toNat)[k.toNat]? = some (p, l)) (hok : (written s p l).ret = .ok) :
    step s = .next (advanceShift (written s p l)) := by
  have hcursor : cursorChannel s.ch = some _ := cursorChannel_eq_some (hc ▸ c.isLt)
  rw [step_of_ok hr (by rw [nextWrite_of_shift hp hc hbit, hsub, hw]) hok,
    advanceOk_of_shift (s := written s p l) hp hcursor]

theorem step_pad_of_ok (hp : s.ph = .transferring) (hc : s.ch = -1) {k : BitVec 3} (hsub : s.sub = k)
    (hk : k = 0 ∨ k = 3 ∨ k = 4) (hw : padIteration[padOffset k]? = some (p, l))
    (hok : (written s p l).ret = .ok) : step s = .next (advancePad (written s p l)) := by
  subst hsub
  have hcursor : cursorChannel s.ch = none := hc ▸ cursorChannel_neg_one
  rw [step_of_ok hr (by rw [nextWrite_of_pad hp hc hk, hw]) hok,
    advanceOk_of_pad (s := written s p l) hp hcursor]

theorem step_committing_of_ok (hp : s.ph = .committing) {k : BitVec 3} (hsub : s.sub = k)
    (hw : commitWrites[k.toNat]? = some (p, l)) (hok : (written s p l).ret = .ok) :
    step s = .next (advanceCommitting (written s p l)) := by
  rw [step_of_ok hr (by rw [nextWrite_of_committing hp, hsub, hw]) hok,
    advanceOk_of_committing (s := written s p l) hp]

end

/-! ### `NEW` (R162) -/

/-- Settles O25: the first four steps count `SUB`, the fifth ends `NEW`. -/
theorem constructionStepsOnOk : Obligations.ConstructionStepsOnOk := by
  unfold Obligations.ConstructionStepsOnOk
  intro s hp hr
  have counts {p : Pin} {l : Level} {k : BitVec 3} (hk : k ≠ 4) (hw : newWrites[k.toNat]? = some (p, l))
      (hsub : s.sub = k) (hok : (written s p l).ret = .ok) :
      step s = .next { written s p l with sub := k + 1 } := by
    subst hsub
    rw [step_constructing_of_ok hr hp rfl hw hok, advanceConstructing_of_not_last (s := written s p l) hk]
    rfl
  refine ⟨counts (by decide) rfl, counts (by decide) rfl, counts (by decide) rfl, counts (by decide) rfl,
    fun hsub hok => ⟨finishNew (written s .blank .high), ?_, getElem_bufFill 0, rfl⟩⟩
  rw [step_constructing_of_ok hr hp hsub rfl hok, advanceConstructing_of_last (s := written s _ _) hsub]

/-! ### The transfer (R164 to R172) -/

/-- Settles O27: the answer begins the transfer. -/
theorem blankingStepOnOk : Obligations.BlankingStepOnOk := by
  unfold Obligations.BlankingStepOnOk
  intro s hp hr hok
  rw [step_of_ok hr (nextWrite_blanking hp) hok, advanceOk_of_blanking (s := written s _ _) hp]
  rfl

/-- Settles O28: the four steps count `SUB`. -/
theorem shiftIterationStepsOnOk : Obligations.ShiftIterationStepsOnOk := by
  unfold Obligations.ShiftIterationStepsOnOk
  intro s c hp hr hc hbit
  have counts {p : Pin} {l : Level} {k : BitVec 3} (hk : k ≠ 4)
      (hw : (shiftIteration s.gs c s.bit.toNat)[k.toNat]? = some (p, l)) (hsub : s.sub = k)
      (hok : (written s p l).ret = .ok) : step s = .next { written s p l with sub := k + 1 } := by
    subst hsub
    rw [step_shift_of_ok hr hp hc hbit rfl hw hok, advanceShift_of_not_last (s := written s p l) hk]
    rfl
  exact ⟨counts (by decide) rfl, counts (by decide) rfl, counts (by decide) rfl, counts (by decide) rfl⟩

/-- Settles O29: the counter of a legal position stays below 4096, and the cursor goes to the next bit. -/
theorem shiftIterationEndsOnOk : Obligations.ShiftIterationEndsOnOk := by
  unfold Obligations.ShiftIterationEndsOnOk
  intro s hp hr hpos hch hsub hok
  have hc : s.ch.toNat < 16 := Nat.lt_succ_of_le hch
  obtain ⟨hbit, -, hpulse⟩ := positionOk_shift hp hc hpos
  have hmore : s.pulse + 1 ≠ 4096 := by bv_omega
  have hstep : step s = .next { nextBit (written s .grayscaleClock .low) with pulse := s.pulse + 1, sub := 0 } := by
    rw [step_shift_of_ok (c := ⟨s.ch.toNat, hc⟩) hr hp rfl hbit hsub rfl hok,
      advanceShift_of_last (s := written s _ _) hsub,
      endIteration_of_not_last (by rw [nextBit_pulse]; exact hmore), nextBit_pulse]
    rfl
  refine ⟨fun hb => ?_, fun hb => ?_⟩
  · rw [hstep, nextBit_of_ne_zero (s := written s _ _) hb]
    rfl
  · rw [hstep, nextBit_of_zero (s := written s _ _) hb]
    rfl

/-- Settles O30: a pad iteration has the steps 0, 3 and 4 only, and the first two of them lead to the next. -/
theorem padIterationStepsOnOk : Obligations.PadIterationStepsOnOk := by
  unfold Obligations.PadIterationStepsOnOk
  intro s hp hr hc
  refine ⟨fun hpos => ?_, fun hsub hok => ?_, fun hsub hok => ?_⟩
  · obtain ⟨-, -, hsub, -, -⟩ := positionOk_pad hp (by rw [hc]; decide) hpos
    rcases hsub with h | h | h <;> rw [h] <;> decide
  · rw [step_pad_of_ok hr hp hc hsub (.inl rfl) rfl hok, advancePad_of_first (s := written s _ _) hsub]
  · rw [step_pad_of_ok hr hp hc hsub (.inr (.inl rfl)) rfl hok, advancePad_of_three (s := written s _ _) hsub]

/-- Settles O31: the iteration that makes `PULSE` 4096 is the last, and no other. -/
theorem padIterationEndsOnOk : Obligations.PadIterationEndsOnOk := by
  unfold Obligations.PadIterationEndsOnOk
  intro s hp hr hc hsub hok
  have hstep : step s = .next (endIteration (written s .grayscaleClock .low)) := by
    rw [step_pad_of_ok hr hp hc hsub (.inr (.inr rfl)) rfl hok, advancePad_of_last (s := written s _ _) hsub]
  refine ⟨fun hlast => ?_, fun hmore => ?_⟩
  · have hend : s.pulse + 1 = 4096 := by rw [hlast]; rfl
    rw [hstep, endIteration_of_last (s := written s _ _) hend]
  · have hend : s.pulse + 1 ≠ 4096 := by bv_omega
    rw [hstep, endIteration_of_not_last (s := written s _ _) hend]
    rfl

/-! ### The commit phase (R173) -/

/-- Settles O32: the first two steps count `SUB`, the third ends `UPDATE`. -/
theorem commitStepsOnOk : Obligations.CommitStepsOnOk := by
  unfold Obligations.CommitStepsOnOk
  intro s hp hr
  have counts {p : Pin} {l : Level} {k : BitVec 3} (hk : k ≠ 2) (hw : commitWrites[k.toNat]? = some (p, l))
      (hsub : s.sub = k) (hok : (written s p l).ret = .ok) :
      step s = .next { written s p l with sub := k + 1 } := by
    subst hsub
    rw [step_committing_of_ok hr hp rfl hw hok, advanceCommitting_of_not_last (s := written s p l) hk]
    rfl
  refine ⟨counts (by decide) rfl, counts (by decide) rfl, fun hsub hok => ?_⟩
  rw [step_committing_of_ok hr hp hsub rfl hok, advanceCommitting_of_last (s := written s _ _) hsub]
  rfl

/-! ### A failed write (R174) -/

/-- Settles O33: a write of `UPDATE` answered `Err(e)` raises `PinWriteFailed(e)`, which keeps the position. -/
theorem failedUpdateStep : Obligations.FailedUpdateStep := by
  unfold Obligations.FailedUpdateStep
  intro s p l e hup hr hw herr
  have hne : (written s p l).ph ≠ .constructing := Updating.ph_ne_constructing hup
  refine ⟨respond (.pinErr e) { written s p l with ph := .failed }, ?_, rfl, rfl, rfl, rfl, rfl, rfl⟩
  rw [step_of_nextWrite hr hw, advance_of_err herr, raiseExn_pinWriteFailed_update hne]

end Sys2Proof.Machine
end

section
/-! PROOFS. The faults of a command and the `HALTED` they end in (R192, R193, R195, R197, R220). -/

namespace Sys2Proof.Machine

/-! ### The two faults of a command (R192, R193) -/

/-- Settles O11: `SET_CHANNEL` is admitted, and its effect out of range is `IndexFault`. -/
theorem indexAboveFifteenHalts : Obligations.IndexAboveFifteenHalts := by
  unfold Obligations.IndexAboveFifteenHalts
  intro s idx val hp hi
  calc exec (.setChannel idx val) s
      = .next (writeChannel idx val s) := onCommand_of_idle_or_failed hp (writeChannel idx val)
    _ = .next (raiseExn .indexFault s) := congrArg _ (writeChannel_of_ge hi val s)

/-- Settles O16: no operation but `NEW` is admitted, so that its effect, and with it the index, plays no part. -/
theorem uninitAdmitsOnlyNew : Obligations.UninitAdmitsOnlyNew := by
  unfold Obligations.UninitAdmitsOnlyNew
  intro s i hp hi
  have hc : cmdReady s = true := by simp [cmdReady_iff, busy, phaseBusy, hp]
  have ha : admitsController s.ph = false := by simp [admitsController, hp]
  have illegal (effect : State → State) :
      onCommand admitsController effect s = .next (raiseExn .illegalCommand s) :=
    onCommand_notAdmitted hc ha effect
  obtain rfl | rfl | ⟨v, rfl⟩ | ⟨idx, v, rfl⟩ := hi <;> exact illegal _

/-! ### `HALTED` (R197, R220) -/

theorem step_of_halted {s : State} (hp : s.ph = .halted) (hr : rstHigh s = false) : step s = .fault .halted := by
  have hf : fetch s = .halted := by simp [fetch_of_rstLow hr, fetchByPhase, hp]
  simp only [step, hf]

/-- Outside a busy phase no write is in flight, so that `rst` writes no pin (R220, R221). -/
theorem hardwareReset_tr_env_of_not_busy {s : State} (hb : busy s = false) (f : InFlight) :
    (hardwareReset f s).tr = s.tr ∧ (hardwareReset f s).env = s.env := by
  simp [hardwareReset, interruptWrite_of_not_busy hb]

/-- Settles O20: `HALTED` selects its fault, and is no busy phase when `rst` ends it. -/
theorem haltedIsLeftOnlyByReset : Obligations.HaltedIsLeftOnlyByReset := by
  unfold Obligations.HaltedIsLeftOnlyByReset
  intro s hp
  refine ⟨step_of_halted hp, fun hr => ?_⟩
  obtain ⟨f, rest, hs⟩ := rst_of_rstHigh hr
  have hb : busy (takeSample s) = false := by simp [busy, phaseBusy, hp]
  exact ⟨_, step_reset hs, rfl, hardwareReset_tr_env_of_not_busy hb f⟩

end Sys2Proof.Machine
end

section
/-! PROOFS. Hardware reset in any state, and the pin write that `rst` cuts off (R23, R30, R220, R221). -/

namespace Sys2Proof.Machine

/-! ### What `rst` leaves (R220) -/

theorem pinLevel_hardwareReset (f : InFlight) (s : State) (p : Pin) :
    pinLevel (hardwareReset f s).pin p = .x := by
  rw [hardwareReset_pin, pinLevel_unknown]

theorem busy_hardwareReset (f : InFlight) (s : State) : busy (hardwareReset f s) = false := rfl

/-- Settles O2: the next state is `hardwareReset` of the state with the sample taken. -/
theorem hardwareResetReachesUninit : Obligations.HardwareResetReachesUninit := by
  unfold Obligations.HardwareResetReachesUninit
  intro s f rest hs
  obtain ⟨hresp, hcmd, hrst, hdirect, -⟩ := hardwareReset_frame f (takeSample s)
  have hrest : (takeSample s).rst = rest := by rw [takeSample_rst, hs, List.tail_cons]
  exact ⟨_, step_reset hs, rfl, pinLevel_hardwareReset f _, hresp, hcmd, hrst.trans hrest, hdirect,
    fun hb => hardwareReset_tr_env_of_not_busy (s := takeSample s) hb f⟩

/-! ### The write in flight (R221) -/

/-- A write that was not issued, or that left no record, is not in the trace and has taken no answer. -/
theorem hardwareReset_tr_env_of_ne_recorded {f : InFlight} (hf : f ≠ .recorded) (s : State) :
    (hardwareReset f s).tr = s.tr ∧ (hardwareReset f s).env = s.env := by
  unfold hardwareReset interruptWrite
  split
  · exact ⟨rfl, rfl⟩
  · exact ⟨rfl, rfl⟩
  · exact ⟨rfl, rfl⟩
  · exact absurd rfl hf

/-- A recorded write in flight is the last entry of the trace, with the answer it got. -/
theorem hardwareReset_recorded_tr {s : State} {p : Pin} {l : Level} (hw : nextWrite s = some (p, l)) :
    (hardwareReset .recorded s).tr = s.tr ++ [{ pin := p, level := l, result := pinAnswer p l s }] := by
  simp only [hardwareReset, interruptWrite, hw]

/-- Settles O3: the write in flight is the one the position asks for, in the trace when it was recorded. -/
theorem resetMayCutAWriteOff : Obligations.ResetMayCutAWriteOff := by
  unfold Obligations.ResetMayCutAWriteOff
  intro s f rest p l hs _ hw
  obtain ⟨hresp, -⟩ := hardwareReset_frame f (takeSample s)
  have unwritten (hf : f ≠ .recorded) :
      (hardwareReset f (takeSample s)).tr = s.tr ∧ (hardwareReset f (takeSample s)).env = s.env :=
    hardwareReset_tr_env_of_ne_recorded hf (takeSample s)
  refine ⟨_, step_reset hs, rfl, hresp, pinLevel_hardwareReset f _, busy_hardwareReset f _, ?_, ?_, ?_⟩
  · rintro rfl
    exact unwritten (by decide)
  · rintro rfl
    exact unwritten (by decide)
  · rintro rfl
    exact ⟨_, hardwareReset_recorded_tr (s := takeSample s) hw⟩

end Sys2Proof.Machine
end
